-- ==== Sys2Proof/Word.lean ====
section
/-! DEFINITION. The words of the block: the byte of a packet and the 9-bit bus symbol (spec/30_encoding.md R70). -/

namespace Sys2Proof

/-- One byte of a packet: bits 7:0 of a symbol (R70). -/
abbrev Byte := BitVec 8

/-- One bus symbol value: bit 8 is the call marker, bits 7:0 the byte (R70). -/
abbrev Symbol := BitVec 9

end Sys2Proof
end

