-- ==== Sys2Proof/Config.lean ====
section
/-! DEFINITION. The implementation parameters of spec/00_scope.md R7. The three dispatch tables, parameters too,
stand in Sys2Proof/Machine/Tables.lean. `CFG_SHOW_INQUIRY` is no constant: it is an input port sampled in every
cycle (spec/10_state.md R30), see `Sys2Proof.Machine.Ports`. -/

namespace Sys2Proof.Config

/-- The identifier of the hardware (R1, D1). -/
def identifier : String := "XPR-1"

/-- `Time`, the type of a timestamp, an open parameter (R7, D3). DESIGN CHOICE (log 3), safe: the natural numbers;
the block only copies timestamps, it neither compares nor computes them (R28, R245). -/
abbrev Time := Nat

/-- `NMAX`, the largest data-byte count a header can declare (R7). -/
def nMax : Nat := 15

/-- `BUFDEPTH`, the bytes the payload buffer holds: one header, fifteen data bytes, one checksum (R7, R27). -/
def bufDepth : Nat := 17

end Sys2Proof.Config
end

