-- ==== Sys2Proof/Syntax.lean ====
section
/-! DEFINITION. The instruction set: one constructor per row of spec/opcode_table.json. An operand is carried whole,
the bits no rule reads included, so that an instruction and its encoding determine each other (log 15). -/

namespace Sys2Proof

/-- The direction of a packet (R76, R127). -/
inductive Dir where
  /-- `DeviceToStation`: the packet opened with a bare header byte. -/
  | deviceToStation
  /-- `StationToDevice`: the packet opened with a call byte. -/
  | stationToDevice
  deriving DecidableEq, Repr

/-- The names of the packet-level operations: what a row of a dispatch table selects (R84, R85, R144, R150). -/
inductive PktOp where
  | bcResume | bcPwroff | bcShort | bcEstop | bcSvcmode
  | ackResp | reqVersion | reqStatus | reqStop | reqResume
  | accInforeq | accOpreq
  | locoSpd14 | locoSpd27 | locoSpd28 | locoSpd128
  | locoFnG1 | locoFnG2 | locoFnG3 | locoFnG4
  | locoFnstG1 | locoFnstG2 | locoFnstG3 | locoFnstG4 | locoFnstG5
  | accInforesp | errTransfer | errBusy | errNotsupp | staStatus | staVersion
  | locoFnstat | locoFnhi | locoFnstathi
  | unknown
  deriving DecidableEq, Repr

/-- An instruction of the block. Call bytes carry bit 7 of the symbol, which no rule reads (R72), and the address;
packet-level operations carry the payload bytes after the ones that select them (R79). -/
inductive Instr where
  /-- `CALL.RQACK` (R104). -/
  | callRqack (bit7 : BitVec 1) (a : BitVec 5)
  /-- `CALL.FB` (R106). -/
  | callFb (bit7 : BitVec 1) (a : BitVec 5)
  /-- `CALL.INQ` (R103). -/
  | callInq (bit7 : BitVec 1) (a : BitVec 5)
  /-- `CALL.BA` (R105). -/
  | callBa (bit7 : BitVec 1) (a : BitVec 5)
  /-- `DATA` (R108). -/
  | data (b : Byte)
  /-- `DATA.HDR0` (R120): `DATA` while `ASM = Idle`. -/
  | dataHdr0 (b : Byte)
  /-- `DATA.HDR1` (R121): `DATA` while `ASM = AwaitingHeader`. -/
  | dataHdr1 (b : Byte)
  /-- `DATA.BODY` (R122): `DATA` while `ASM = Collecting` and `REM > 1`. -/
  | dataBody (b : Byte)
  /-- `DATA.LAST` (R124): `DATA` while `ASM = Collecting` and `REM = 1`. -/
  | dataLast (b : Byte)
  /-- `BC.RESUME` (R145). -/
  | bcResume
  /-- `BC.PWROFF` (R146). -/
  | bcPwroff
  /-- `BC.SHORT` (R147). -/
  | bcShort
  /-- `BC.ESTOP` (R148). -/
  | bcEstop
  /-- `BC.SVCMODE` (R149). -/
  | bcSvcmode
  /-- `ACK.RESP` (R210). -/
  | ackResp
  /-- `REQ.VERSION` (R211). -/
  | reqVersion
  /-- `REQ.STATUS` (R212). -/
  | reqStatus
  /-- `REQ.STOP` (R213). -/
  | reqStop
  /-- `REQ.RESUME` (R214). -/
  | reqResume
  /-- `ACC.INFOREQ` (R192): group byte and `-------n`. -/
  | accInforeq (a b : Byte)
  /-- `ACC.OPREQ` (R195): group byte and `----dbbo`. -/
  | accOpreq (a b : Byte)
  /-- `LOCO.SPD14` (R162). -/
  | locoSpd14 (ah al rv : Byte)
  /-- `LOCO.SPD27` (R163). -/
  | locoSpd27 (ah al rv : Byte)
  /-- `LOCO.SPD28` (R164). -/
  | locoSpd28 (ah al rv : Byte)
  /-- `LOCO.SPD128` (R165). -/
  | locoSpd128 (ah al rv : Byte)
  /-- `LOCO.FN.G1` (R168). -/
  | locoFnG1 (ah al d : Byte)
  /-- `LOCO.FN.G2` (R169). -/
  | locoFnG2 (ah al d : Byte)
  /-- `LOCO.FN.G3` (R170). -/
  | locoFnG3 (ah al d : Byte)
  /-- `LOCO.FN.G4` (R171). -/
  | locoFnG4 (ah al d : Byte)
  /-- `LOCO.FNST.G1` (R172). -/
  | locoFnstG1 (ah al d : Byte)
  /-- `LOCO.FNST.G2` (R173). -/
  | locoFnstG2 (ah al d : Byte)
  /-- `LOCO.FNST.G3` (R174). -/
  | locoFnstG3 (ah al d : Byte)
  /-- `LOCO.FNST.G4` (R175). -/
  | locoFnstG4 (ah al d : Byte)
  /-- `LOCO.FNST.G5` (R176). -/
  | locoFnstG5 (ah al d : Byte)
  /-- `ACC.INFORESP` (R193): group byte and `ittnzzzz`. -/
  | accInforesp (a b : Byte)
  /-- `ERR.TRANSFER` (R215). -/
  | errTransfer
  /-- `ERR.BUSY` (R216). -/
  | errBusy
  /-- `ERR.NOTSUPP` (R217). -/
  | errNotsupp
  /-- `STA.STATUS` (R218): `rp--smeo`. -/
  | staStatus (st : Byte)
  /-- `STA.VERSION` (R220): `MMMMmmmm` and the station id. -/
  | staVersion (v stationId : Byte)
  /-- `LOCO.FNSTAT` (R177). -/
  | locoFnstat (s0 s1 : Byte)
  /-- `LOCO.FNHI` (R178). -/
  | locoFnhi (b2 b3 : Byte)
  /-- `LOCO.FNSTATHI` (R179): the third byte, `payload[4]`, is read by no rule. -/
  | locoFnstathi (b2 b3 b4 : Byte)
  /-- `UNKNOWN` (R150): a completed packet that selects no other row, as its direction and whole payload. -/
  | unknown (dir : Dir) (payload : List Byte)
  deriving DecidableEq, Repr

end Sys2Proof
end

