-- ==== Sys2Proof/Machine/Tables.lean ====
section
/-! DEFINITION. The three dispatch tables (spec/42_dispatcher.md R144, spec/30_encoding.md R84, R85) and the selection
of a packet-level operation (R141). The tables are fixed data (R7, R61); the rows the spec marks GK rest on its
decisions D13 to D15 and not on its source: UNVERIFIED (log 11), unsafe. -/

namespace Sys2Proof.Machine

/-- `N`, the low nibble of a header byte: the count of data bytes before the checksum (R73). -/
def headerCount (h : Byte) : Nat := (h.extractLsb' 0 4).toNat

/-- A completed packet's payload is framed: its header is there and `|payload| = payload[0][3:0] + 1` (R127). -/
def framed (payload : List Byte) : Bool :=
  match payload with
  | [] => false
  | h :: rest => rest.length == headerCount h

/-- A row of the broadcast table: the exact pair `(payload[0], payload[1])` (R144). -/
structure BcastRow where
  header : Byte
  second : Byte
  op : PktOp
  deriving DecidableEq, Repr

/-- `BCAST_TABLE`, five rows in the order of R144. -/
def bcastTable : List BcastRow :=
  [⟨0x61, 0x01, .bcResume⟩, ⟨0x61, 0x00, .bcPwroff⟩, ⟨0x61, 0x08, .bcShort⟩, ⟨0x81, 0x00, .bcEstop⟩,
   ⟨0x61, 0x02, .bcSvcmode⟩]

/-- A row of an opcode table: the header, the sub-opcode where the decoder has one, the operation (R84, R85). -/
structure OpcodeRow where
  header : Byte
  sub : Option Byte
  op : PktOp
  deriving DecidableEq, Repr

/-- `D2S_TABLE`, the locomotive rows (R84). -/
def d2sLocoRows : List OpcodeRow :=
  [⟨0xE4, some 0x10, .locoSpd14⟩, ⟨0xE4, some 0x11, .locoSpd27⟩, ⟨0xE4, some 0x12, .locoSpd28⟩,
   ⟨0xE4, some 0x13, .locoSpd128⟩, ⟨0xE4, some 0x20, .locoFnG1⟩, ⟨0xE4, some 0x21, .locoFnG2⟩,
   ⟨0xE4, some 0x22, .locoFnG3⟩, ⟨0xE4, some 0x23, .locoFnG4⟩, ⟨0xE4, some 0x24, .locoFnstG1⟩,
   ⟨0xE4, some 0x25, .locoFnstG2⟩, ⟨0xE4, some 0x26, .locoFnstG3⟩, ⟨0xE4, some 0x27, .locoFnstG4⟩,
   ⟨0xE4, some 0x2C, .locoFnstG5⟩]

/-- `D2S_TABLE`, the device-to-station opcode table (R84). -/
def d2sTable : List OpcodeRow :=
  [⟨0x20, none, .ackResp⟩, ⟨0x21, some 0x21, .reqVersion⟩, ⟨0x21, some 0x24, .reqStatus⟩,
   ⟨0x21, some 0x80, .reqStop⟩, ⟨0x21, some 0x81, .reqResume⟩, ⟨0x42, none, .accInforeq⟩,
   ⟨0x52, none, .accOpreq⟩] ++ d2sLocoRows

/-- `S2D_TABLE`, the station-to-device opcode table (R85). -/
def s2dTable : List OpcodeRow :=
  [⟨0x42, none, .accInforesp⟩, ⟨0x61, some 0x80, .errTransfer⟩, ⟨0x61, some 0x81, .errBusy⟩,
   ⟨0x61, some 0x82, .errNotsupp⟩, ⟨0x62, some 0x22, .staStatus⟩, ⟨0x63, some 0x21, .staVersion⟩,
   ⟨0xE3, some 0x50, .locoFnstat⟩, ⟨0xE3, some 0x52, .locoFnhi⟩, ⟨0xE4, some 0x51, .locoFnstathi⟩]

/-- The opcode table of a direction (R141 step 2). -/
def opcodeTable : Dir → List OpcodeRow
  | .deviceToStation => d2sTable
  | .stationToDevice => s2dTable

/-- The broadcast check of R141 step 1: made only for a packet that began with a call byte (R142). -/
def bcastLookup (dir : Dir) (payload : List Byte) : Option PktOp :=
  match dir, payload with
  | .stationToDevice, h :: second :: _ =>
    (bcastTable.find? fun r => r.header == h && r.second == second).map (·.op)
  | _, _ => none

/-- A decoder case takes every payload with its header, or the ones with its sub-opcode (R151). -/
def OpcodeRow.accepts (r : OpcodeRow) (second : Option Byte) : Bool :=
  match r.sub with
  | none => true
  | some x => second == some x

/-- The decoders of a header: the rows of the table that have it (R141 step 3, "`payload[0]` is present"). -/
def rowsOfHeader (t : List OpcodeRow) (h : Byte) : List OpcodeRow := t.filter (·.header == h)

/-- What the opcode table says of a payload: the header is absent, the decoder declines, or the operation found. The
first two both become `UNKNOWN`; R150 allows a model to keep them apart. -/
inductive Lookup where
  | absent
  | declined
  | found (op : PktOp)
  deriving DecidableEq, Repr

/-- R141 step 3: the header's decoder, and its case for the sub-opcode (R151). -/
def opcodeLookup (t : List OpcodeRow) (payload : List Byte) : Lookup :=
  match payload with
  | [] => .absent
  | h :: rest =>
    match rowsOfHeader t h with
    | [] => .absent
    | rows =>
      match rows.find? (·.accepts rest.head?) with
      | some r => .found r.op
      | none => .declined

/-- The selection of a packet-level operation, in the order of R141: broadcast pair, opcode table of the direction,
`UNKNOWN`. -/
def selectOp (dir : Dir) (payload : List Byte) : PktOp :=
  match bcastLookup dir payload with
  | some op => op
  | none =>
    match opcodeLookup (opcodeTable dir) payload with
    | .found op => op
    | .absent => .unknown
    | .declined => .unknown

/-- A `PKT` row of spec/opcode_table.json: match and mask over the dispatch word (R77). -/
structure DwRow where
  pattern : BitVec 17
  mask : BitVec 17
  op : PktOp
  deriving DecidableEq, Repr

/-- A dispatch word fits a row. -/
def DwRow.fits (r : DwRow) (dw : BitVec 17) : Bool := dw &&& r.mask == r.pattern

/-- The `PKT` rows of spec/opcode_table.json but `UNKNOWN`: broadcasts (R145 to R149) and station to device. -/
def dwRowsS2d : List DwRow :=
  [⟨0x16101, 0x1FFFF, .bcResume⟩, ⟨0x16100, 0x1FFFF, .bcPwroff⟩, ⟨0x16108, 0x1FFFF, .bcShort⟩,
   ⟨0x18100, 0x1FFFF, .bcEstop⟩, ⟨0x16102, 0x1FFFF, .bcSvcmode⟩, ⟨0x14200, 0x1FF00, .accInforesp⟩,
   ⟨0x16180, 0x1FFFF, .errTransfer⟩, ⟨0x16181, 0x1FFFF, .errBusy⟩, ⟨0x16182, 0x1FFFF, .errNotsupp⟩,
   ⟨0x16222, 0x1FFFF, .staStatus⟩, ⟨0x16321, 0x1FFFF, .staVersion⟩, ⟨0x1E350, 0x1FFFF, .locoFnstat⟩,
   ⟨0x1E352, 0x1FFFF, .locoFnhi⟩, ⟨0x1E451, 0x1FFFF, .locoFnstathi⟩]

/-- The `PKT` rows of spec/opcode_table.json, device to station. -/
def dwRowsD2s : List DwRow :=
  [⟨0x02000, 0x1FF00, .ackResp⟩, ⟨0x02121, 0x1FFFF, .reqVersion⟩, ⟨0x02124, 0x1FFFF, .reqStatus⟩,
   ⟨0x02180, 0x1FFFF, .reqStop⟩, ⟨0x02181, 0x1FFFF, .reqResume⟩, ⟨0x04200, 0x1FF00, .accInforeq⟩,
   ⟨0x05200, 0x1FF00, .accOpreq⟩, ⟨0x0E410, 0x1FFFF, .locoSpd14⟩, ⟨0x0E411, 0x1FFFF, .locoSpd27⟩,
   ⟨0x0E412, 0x1FFFF, .locoSpd28⟩, ⟨0x0E413, 0x1FFFF, .locoSpd128⟩, ⟨0x0E420, 0x1FFFF, .locoFnG1⟩,
   ⟨0x0E421, 0x1FFFF, .locoFnG2⟩, ⟨0x0E422, 0x1FFFF, .locoFnG3⟩, ⟨0x0E423, 0x1FFFF, .locoFnG4⟩,
   ⟨0x0E424, 0x1FFFF, .locoFnstG1⟩, ⟨0x0E425, 0x1FFFF, .locoFnstG2⟩, ⟨0x0E426, 0x1FFFF, .locoFnstG3⟩,
   ⟨0x0E427, 0x1FFFF, .locoFnstG4⟩, ⟨0x0E42C, 0x1FFFF, .locoFnstG5⟩]

/-- The match-and-mask table of R77: every `PKT` row but the default `UNKNOWN`. -/
def dwRows : List DwRow := dwRowsS2d ++ dwRowsD2s

/-- The operation the match-and-mask table gives a dispatch word (R77, R82). The block does not use it: R141's order
of lookups (`selectOp`) is what runs, and that the two agree is a statement about the model. -/
def opOfDispatchWord (dw : BitVec 17) : PktOp :=
  match dwRows.find? (·.fits dw) with
  | some r => r.op
  | none => .unknown

/-- Bit 16 of the dispatch word: 1 for `StationToDevice` (R76, R77). -/
def dirBit : Dir → BitVec 1
  | .deviceToStation => 0
  | .stationToDevice => 1

/-- The dispatch word `DW` of a payload: direction, header, and the second byte or 0 where there is none (R77). -/
def dispatchWord (dir : Dir) (payload : List Byte) : BitVec 17 :=
  dirBit dir ++ (payload.headD 0 ++ payload.tail.headD 0)

end Sys2Proof.Machine
end

