-- ==== Sys2Proof/WellFormed.lean ====
section
/-! DEFINITION. Which terms of `Instr` are instructions. The widths of the operand types say it for every row but
`UNKNOWN`, whose payload must be one the block can complete and must select no other row. -/

namespace Sys2Proof

/-- `UNKNOWN` carries a framed payload (R127) that selects no other row (R150). -/
def unknownWellFormed (dir : Dir) (payload : List Byte) : Bool :=
  Machine.framed payload && Machine.selectOp dir payload == .unknown

/-- An instruction is well formed. -/
def Instr.wellFormed : Instr → Bool
  | .unknown dir payload => unknownWellFormed dir payload
  | .callRqack _ _ | .callFb _ _ | .callInq _ _ | .callBa _ _ => true
  | .data _ | .dataHdr0 _ | .dataHdr1 _ | .dataBody _ | .dataLast _ => true
  | .bcResume | .bcPwroff | .bcShort | .bcEstop | .bcSvcmode => true
  | .ackResp | .reqVersion | .reqStatus | .reqStop | .reqResume => true
  | .accInforeq _ _ | .accOpreq _ _ | .accInforesp _ _ => true
  | .locoSpd14 _ _ _ | .locoSpd27 _ _ _ | .locoSpd28 _ _ _ | .locoSpd128 _ _ _ => true
  | .locoFnG1 _ _ _ | .locoFnG2 _ _ _ | .locoFnG3 _ _ _ | .locoFnG4 _ _ _ => true
  | .locoFnstG1 _ _ _ | .locoFnstG2 _ _ _ | .locoFnstG3 _ _ _ | .locoFnstG4 _ _ _ | .locoFnstG5 _ _ _ => true
  | .errTransfer | .errBusy | .errNotsupp => true
  | .staStatus _ | .staVersion _ _ => true
  | .locoFnstat _ _ | .locoFnhi _ _ | .locoFnstathi _ _ _ => true

end Sys2Proof
end

