-- ==== Sys2Proof/Decode.lean ====
section
/-! DEFINITION. Decoding at both levels (spec/30_encoding.md): a 9-bit symbol to a symbol-level instruction, a completed
packet to a packet-level one; then the encoder, and the bit numbering of spec/opcode_table.json. -/

namespace Sys2Proof

/-! ### Symbol level (R70 to R72, R102) -/

/-- The byte of a symbol, `value[7:0]`, "regardless of call/data status" (R70). -/
def lowByte (v : Symbol) : Byte := v.extractLsb' 0 8

/-- "A symbol is a call byte iff its 9-bit value is ≥ 256" (R70): bit 8. -/
def isCallByte (v : Symbol) : Bool := v.getLsbD 8

/-- The category of a call byte (R72). -/
inductive Category where
  | requestAck | feedback | inquiry | broadcastOrAnswer
  deriving DecidableEq, Repr

/-- The category from bits 6:5 of the low byte, bit 6 written first: `10` Inquiry, `00` RequestAck,
`11` BroadcastOrAnswer, `01` the reserved one (R71, R72; conflict C5). -/
def categoryOf (low : Byte) : Category :=
  match low.getLsbD 6, low.getLsbD 5 with
  | false, false => .requestAck
  | false, true => .feedback
  | true, false => .inquiry
  | true, true => .broadcastOrAnswer

/-- The address of a call byte, `low[4:0]` (R72). -/
def addressOf (low : Byte) : BitVec 5 := low.extractLsb' 0 5

/-- Bit 7 of a call byte, read by no rule (R72, R83): carried so that no bit of an encoding is dropped. -/
def bit7Of (low : Byte) : BitVec 1 := low.extractLsb' 7 1

/-- A classified symbol (R102). -/
inductive ClassifiedSymbol where
  | callByte (category : Category) (bit7 : BitVec 1) (address : BitVec 5)
  | dataByte (value : Byte)
  deriving DecidableEq, Repr

/-- The symbol classifier: "a pure, total function" (R102). -/
def classify (v : Symbol) : ClassifiedSymbol :=
  let low := lowByte v
  if isCallByte v then .callByte (categoryOf low) (bit7Of low) (addressOf low) else .dataByte low

/-- The symbol-level instruction of a symbol; all 512 values have one (R71, R81, R100). -/
def decodeSymbol (v : Symbol) : Instr :=
  match classify v with
  | .callByte .inquiry b a => .callInq b a
  | .callByte .requestAck b a => .callRqack b a
  | .callByte .broadcastOrAnswer b a => .callBa b a
  | .callByte .feedback b a => .callFb b a
  | .dataByte b => .data b

/-! ### Packet level (R77, R79, R141) -/

/-- Why bits are no instruction. -/
inductive DecodeReject where
  /-- The payload is not framed: its length is not the one its header declares (R127, R235). -/
  | misframed
  /-- A decoder's operand byte is past the end of the payload; no framed payload gives it (R52, R235). -/
  | truncated
  /-- A symbol-level instruction where a packet-level one is asked for; `decodePacket` gives none. -/
  | notAPacket
  deriving DecidableEq, Repr

/-- The operand `payload[2]`. -/
def withByte2 (payload : List Byte) (f : Byte → Instr) : Except DecodeReject Instr :=
  match payload with
  | _ :: _ :: b2 :: _ => .ok (f b2)
  | _ => .error .truncated

/-- The operands `payload[1]` and `payload[2]`. -/
def withBytes12 (payload : List Byte) (f : Byte → Byte → Instr) : Except DecodeReject Instr :=
  match payload with
  | _ :: b1 :: b2 :: _ => .ok (f b1 b2)
  | _ => .error .truncated

/-- The operands `payload[2]` and `payload[3]`. -/
def withBytes23 (payload : List Byte) (f : Byte → Byte → Instr) : Except DecodeReject Instr :=
  match payload with
  | _ :: _ :: b2 :: b3 :: _ => .ok (f b2 b3)
  | _ => .error .truncated

/-- The operands `payload[2]`, `payload[3]` and `payload[4]`. -/
def withBytes234 (payload : List Byte) (f : Byte → Byte → Byte → Instr) : Except DecodeReject Instr :=
  match payload with
  | _ :: _ :: b2 :: b3 :: b4 :: _ => .ok (f b2 b3 b4)
  | _ => .error .truncated

/-- The packet-level instruction of an operation and a payload: the operand bytes of R79. -/
def instrOfOp (op : PktOp) (dir : Dir) (payload : List Byte) : Except DecodeReject Instr :=
  match op with
  | .bcResume => .ok .bcResume
  | .bcPwroff => .ok .bcPwroff
  | .bcShort => .ok .bcShort
  | .bcEstop => .ok .bcEstop
  | .bcSvcmode => .ok .bcSvcmode
  | .ackResp => .ok .ackResp
  | .reqVersion => .ok .reqVersion
  | .reqStatus => .ok .reqStatus
  | .reqStop => .ok .reqStop
  | .reqResume => .ok .reqResume
  | .accInforeq => withBytes12 payload .accInforeq
  | .accOpreq => withBytes12 payload .accOpreq
  | .locoSpd14 => withBytes234 payload .locoSpd14
  | .locoSpd27 => withBytes234 payload .locoSpd27
  | .locoSpd28 => withBytes234 payload .locoSpd28
  | .locoSpd128 => withBytes234 payload .locoSpd128
  | .locoFnG1 => withBytes234 payload .locoFnG1
  | .locoFnG2 => withBytes234 payload .locoFnG2
  | .locoFnG3 => withBytes234 payload .locoFnG3
  | .locoFnG4 => withBytes234 payload .locoFnG4
  | .locoFnstG1 => withBytes234 payload .locoFnstG1
  | .locoFnstG2 => withBytes234 payload .locoFnstG2
  | .locoFnstG3 => withBytes234 payload .locoFnstG3
  | .locoFnstG4 => withBytes234 payload .locoFnstG4
  | .locoFnstG5 => withBytes234 payload .locoFnstG5
  | .accInforesp => withBytes12 payload .accInforesp
  | .errTransfer => .ok .errTransfer
  | .errBusy => .ok .errBusy
  | .errNotsupp => .ok .errNotsupp
  | .staStatus => withByte2 payload .staStatus
  | .staVersion => withBytes23 payload .staVersion
  | .locoFnstat => withBytes23 payload .locoFnstat
  | .locoFnhi => withBytes23 payload .locoFnhi
  | .locoFnstathi => withBytes234 payload .locoFnstathi
  | .unknown => .ok (.unknown dir payload)

/-- The packet-level instruction of a completed packet: selection in the order of R141, then the operand bytes. -/
def decodePacket (dir : Dir) (payload : List Byte) : Except DecodeReject Instr :=
  if Machine.framed payload then instrOfOp (Machine.selectOp dir payload) dir payload else .error .misframed

/-! ### Both levels, and the encoder -/

/-- The bits an instruction is read from: a symbol, or a completed packet's direction and payload. -/
inductive Code where
  | symbol (v : Symbol)
  | packet (dir : Dir) (payload : List Byte)
  deriving DecidableEq, Repr

/-- The decoder, total: every code is an instruction or is rejected by name. -/
def decode : Code → Except DecodeReject Instr
  | .symbol v => .ok (decodeSymbol v)
  | .packet dir payload => decodePacket dir payload

/-- A call symbol: marker, bit 7, category bits 6:5, address (R71, R72). -/
def callSymbol (bit7 : BitVec 1) (category : BitVec 2) (a : BitVec 5) : Symbol :=
  1#1 ++ (bit7 ++ (category ++ a))

/-- A data symbol: bit 8 clear (R70). -/
def dataSymbol (b : Byte) : Symbol := 0#1 ++ b

/-- A device-to-station packet. -/
def d2s (payload : List Byte) : Code := .packet .deviceToStation payload

/-- A station-to-device packet. -/
def s2d (payload : List Byte) : Code := .packet .stationToDevice payload

/-- The encoder: the bits of an instruction, written out from R71 and R79. The sub-operations of `DATA` share its bits
(format `SYM.STATE`). -/
def encode : Instr → Code
  | .callRqack b a => .symbol (callSymbol b 0b00 a)
  | .callFb b a => .symbol (callSymbol b 0b01 a)
  | .callInq b a => .symbol (callSymbol b 0b10 a)
  | .callBa b a => .symbol (callSymbol b 0b11 a)
  | .data b => .symbol (dataSymbol b)
  | .dataHdr0 b => .symbol (dataSymbol b)
  | .dataHdr1 b => .symbol (dataSymbol b)
  | .dataBody b => .symbol (dataSymbol b)
  | .dataLast b => .symbol (dataSymbol b)
  | .bcResume => s2d [0x61, 0x01]
  | .bcPwroff => s2d [0x61, 0x00]
  | .bcShort => s2d [0x61, 0x08]
  | .bcEstop => s2d [0x81, 0x00]
  | .bcSvcmode => s2d [0x61, 0x02]
  | .ackResp => d2s [0x20]
  | .reqVersion => d2s [0x21, 0x21]
  | .reqStatus => d2s [0x21, 0x24]
  | .reqStop => d2s [0x21, 0x80]
  | .reqResume => d2s [0x21, 0x81]
  | .accInforeq a b => d2s [0x42, a, b]
  | .accOpreq a b => d2s [0x52, a, b]
  | .locoSpd14 ah al rv => d2s [0xE4, 0x10, ah, al, rv]
  | .locoSpd27 ah al rv => d2s [0xE4, 0x11, ah, al, rv]
  | .locoSpd28 ah al rv => d2s [0xE4, 0x12, ah, al, rv]
  | .locoSpd128 ah al rv => d2s [0xE4, 0x13, ah, al, rv]
  | .locoFnG1 ah al d => d2s [0xE4, 0x20, ah, al, d]
  | .locoFnG2 ah al d => d2s [0xE4, 0x21, ah, al, d]
  | .locoFnG3 ah al d => d2s [0xE4, 0x22, ah, al, d]
  | .locoFnG4 ah al d => d2s [0xE4, 0x23, ah, al, d]
  | .locoFnstG1 ah al d => d2s [0xE4, 0x24, ah, al, d]
  | .locoFnstG2 ah al d => d2s [0xE4, 0x25, ah, al, d]
  | .locoFnstG3 ah al d => d2s [0xE4, 0x26, ah, al, d]
  | .locoFnstG4 ah al d => d2s [0xE4, 0x27, ah, al, d]
  | .locoFnstG5 ah al d => d2s [0xE4, 0x2C, ah, al, d]
  | .accInforesp a b => s2d [0x42, a, b]
  | .errTransfer => s2d [0x61, 0x80]
  | .errBusy => s2d [0x61, 0x81]
  | .errNotsupp => s2d [0x61, 0x82]
  | .staStatus st => s2d [0x62, 0x22, st]
  | .staVersion v stationId => s2d [0x63, 0x21, v, stationId]
  | .locoFnstat s0 s1 => s2d [0xE3, 0x50, s0, s1]
  | .locoFnhi b2 b3 => s2d [0xE3, 0x52, b2, b3]
  | .locoFnstathi b2 b3 b4 => s2d [0xE4, 0x51, b2, b3, b4]
  | .unknown dir payload => .packet dir payload

/-- A code the block can be presented with: any symbol, any framed packet (R127). -/
def Code.wellFramed : Code → Bool
  | .symbol _ => true
  | .packet _ payload => Machine.framed payload

/-- What an instruction decodes to from its own bits: a sub-operation of `DATA` shares the bits of `DATA`, and the
assembler state, no bit, tells them apart (R71, R108); every other instruction decodes to itself. -/
def Instr.asDecoded : Instr → Instr
  | .dataHdr0 b => .data b
  | .dataHdr1 b => .data b
  | .dataBody b => .data b
  | .dataLast b => .data b
  | i => i

/-! ### The two-byte transport of a symbol (R42) and the bit numbering of spec/opcode_table.json -/

/-- The host adaptor's value: `(byte0 << 8) | byte1`, its bits 8:0 (R42, R53). -/
def transportValue (byte0 byte1 : Byte) : Symbol := (byte0 ++ byte1).setWidth 9

/-- The host adaptor's error flag: a frame with any of bits 15:9 set is no 9-bit symbol (R42, D29). -/
def transportError (byte0 : Byte) : Bool := decide (1 < byte0.toNat)

/-- The payload a dispatch word stands for: the header, then the `N` data bytes it declares, the first of them `p1` and
the others 0 (R77: rows give no bits to later payload bytes). -/
def payloadOfWord (w : Nat) : List Byte :=
  let h := BitVec.ofNat 8 (w / 256)
  h :: (BitVec.ofNat 8 w :: List.replicate Config.nMax 0).take (Machine.headerCount h)

/-- The direction of a dispatch word, bit 16 (R77). -/
def dirOfWord (w : Nat) : Dir := if w / 65536 % 2 = 1 then .stationToDevice else .deviceToStation

/-- The code of a table word. A row with 9 to 16 bits is a symbol row (`SYM`, `SYM.STATE`); a longer one is a dispatch
word (`PKT`), and so is one of at most 8 bits: only `UNKNOWN`, whose mask is 0, can have so few (log 10). A number
with bits above the symbol's or the dispatch word's width is none. -/
def codeOfTableWord (nbits w : Nat) : Option Code :=
  if 8 < nbits ∧ nbits ≤ 16 then
    if w < 512 then some (.symbol (BitVec.ofNat 9 w)) else none
  else
    if w < 131072 then some (.packet (dirOfWord w) (payloadOfWord w)) else none

/-- The instruction the decoder reads from a table word (log 10). -/
def decodeTableWord (nbits w : Nat) : Option Instr :=
  match codeOfTableWord nbits w with
  | none => none
  | some c =>
    match decode c with
    | .ok i => some i
    | .error _ => none

end Sys2Proof
end

