-- ==== Sys2Proof/Machine/State.lean ====
section
/-! DEFINITION. The state of the block as plain data (spec/10_state.md R20, R35, R40, R41), the event record
(spec/30_encoding.md R87, R88), and the reasons a step can stop. -/

namespace Sys2Proof.Machine

open Sys2Proof.Config (Time)

/-! ### Registers and ports -/

/-- `ASM`, the assembler state (R24). The encoding is not observable (D28). -/
inductive Asm where
  /-- No packet in progress. -/
  | idle
  /-- Call byte seen, header byte not yet read. -/
  | awaitingHeader
  /-- Header read; `REM` bytes still to arrive (the source's `CollectingPayload`). -/
  | collecting
  deriving DecidableEq, Repr

/-- The input ports in one clock cycle (R40); `clk` is the step itself. -/
structure Ports where
  /-- `rst`. -/
  rst : Bool
  /-- `sym_valid`. -/
  symValid : Bool
  /-- `sym_err`. -/
  symErr : Bool
  /-- `sym_value`. -/
  symValue : BitVec 9
  /-- `sym_start`. -/
  symStart : Time
  /-- `sym_end`. -/
  symEnd : Time
  /-- `cfg_show_inquiry`, the toggle `CFG_SHOW_INQUIRY` (R30). -/
  cfgShowInquiry : Bool
  deriving DecidableEq, Repr

/-- Every input port low: what the model's `port` field holds before the first cycle (DESIGN CHOICE, log 24). -/
def Ports.low : Ports := ⟨false, false, false, 0, 0, 0, false⟩

/-- The payload buffer as the cells that have been written: addresses strictly rising, all of them indices of `BUF`.
An address that is not listed has no value: reading it faults (log 5). -/
abbrev Memory := List Host.Cell

/-! ### Events (R87) -/

/-- `generic_request.type` (R211 to R214). -/
inductive RequestType where
  | softwareVersionRequest | statusRequest | stopOperationsRequest | resumeOperationsRequest
  deriving DecidableEq, Repr

/-- A pair of 10-bit accessory addresses (R191). -/
structure AddressPair where
  first : BitVec 10
  second : BitVec 10
  deriving DecidableEq, Repr

/-- `accessory_decoder_information_response.extra` (R193); the states are `TurnoutState` codes (R190). -/
structure AccExtra where
  state0 : BitVec 2
  state1 : BitVec 2
  incomplete : Bool
  deriving DecidableEq, Repr

/-- `output` of an operation request: `"1"` or `"2"` (R195, D20). -/
inductive Output where
  | one | two
  deriving DecidableEq, Repr

/-- `output_state` of an operation request (R195, D20). -/
inductive OutputState where
  | activate | deactivate
  deriving DecidableEq, Repr

/-- `steps`: one of 14, 27, 28, 128 (R87). -/
inductive Steps where
  | s14 | s27 | s28 | s128
  deriving DecidableEq, Repr

/-- `Speed`: `EmergencyStop` or `Step(n)` with `0 <= n <= 126` (R87, R161). -/
inductive Speed where
  | emergencyStop
  | step (n : BitVec 7)
  deriving DecidableEq, Repr

/-- `FnSet`: bit `k` stands for function F`k`; `mask[k] = 1` iff the packet carries F`k` (R87, R167). -/
structure FnSet where
  mask : BitVec 29
  bits : BitVec 29
  deriving DecidableEq, Repr

/-- `software_version.type` (R220). -/
structure Version where
  major : BitVec 4
  minor : BitVec 4
  deriving DecidableEq, Repr

/-- `start_mode` of the station status (R218). -/
inductive StartMode where
  | manual | automatic
  deriving DecidableEq, Repr

/-- `StatusFlags` (R218). -/
structure StatusFlags where
  ramCheckError : Bool
  powerUp : Bool
  serviceMode : Bool
  startMode : StartMode
  emergencyStop : Bool
  emergencyOff : Bool
  deriving DecidableEq, Repr

/-- An event's kind with its fields, in the order of the kind codes of R88. -/
inductive EventBody where
  | callbyte
  | normalInquiry (address : BitVec 5)
  | requestAcknowledgment (address : BitVec 5)
  | normalOperationResumed
  | trackPowerOff
  | shortCircuit
  | emergencyStop
  | serviceModeEntry
  | acknowledgmentResponse
  | genericRequest (type : RequestType)
  | accessoryDecoderInformationRequest (addresses : AddressPair)
  | accessoryDecoderInformationResponse (type : BitVec 2) (addresses : AddressPair) (extra : AccExtra)
  | accessoryDecoderOperationRequest (address : BitVec 10) (output : Output) (outputState : OutputState)
  | locomotiveSpeedAndDirectionOperation (address : BitVec 14) (steps : Steps) (direction : Bool) (speed : Speed)
  | functionOperationInstructions (address : BitVec 14) (functions : FnSet)
  | softwareVersion (type : Version) (stationId : BitVec 8)
  | status (extra : StatusFlags)
  | transferError
  | commandStationBusy
  | instructionNotSupported
  | unknown
  | setFunctionState (address : BitVec 14) (functions : FnSet)
  | functionStatusResponse (functions : FnSet)
  | functionStatusHighResponse (functions : FnSet)
  | functionStateHighResponse (functions : FnSet)
  deriving DecidableEq, Repr

/-- The event record `{kind, start_time, end_time, fields}` (R87). -/
structure Event where
  body : EventBody
  startTime : Time
  endTime : Time
  deriving DecidableEq, Repr

/-! ### The state -/

/-- The state: the tuple of R20, then the ports. -/
structure State where
  /-- `ADDR`, the address of the last call byte seen (R21). -/
  addr : BitVec 5
  /-- `ASM`, the assembler state (R23, R24). -/
  asm : Asm
  /-- `SWCB`, the packet in progress began with a call byte (R25). -/
  swcb : Bool
  /-- `REM`, the bytes still to arrive, 0..16 (R26). -/
  rem : BitVec 5
  /-- `LEN`, the bytes stored in `BUF`, 0..17 (R26). -/
  len : BitVec 5
  /-- `BUF`, the payload buffer (R27). -/
  buf : Memory
  /-- `START`, the start time of the packet in progress (R28). -/
  start : Time
  /-- The MODEL's own: the input ports as sampled in the current cycle (R40; log 1). -/
  port : Ports
  /-- The MODEL's own: the port samples of the cycles to come, the environment's choice (R13; log 1). -/
  inputs : List Ports
  /-- The MODEL's own: the output ports as the last cycle drove them, `none` for `evt_valid = 0` (R41; log 2). -/
  evt : Option Event
  deriving DecidableEq, Repr

/-- The state right after reset (R35). `BUF` is unspecified there and lists no byte (log 5); `START` is unspecified and
0 is the model's value, DESIGN CHOICE, unsafe (log 4); no cycle is presented yet (log 24). -/
def State.reset : State where
  addr := 0
  asm := .idle
  swcb := false
  rem := 0
  len := 0
  buf := []
  start := 0
  port := Ports.low
  inputs := []
  evt := none

/-! ### Why a step can stop -/

/-- Faults. The block itself raises nothing (R230); each of these is the model's, raised only in states no run from
reset reaches (log 17). All are safe: the model stops where the spec gives no result. -/
inductive Fault where
  /-- Raised by `Memory.read` and `Memory.write`: an index outside `BUF[0..16]` (R27, R51). Safe. -/
  | bufIndex (i : Nat)
  /-- Raised by `Memory.read`: a byte of `BUF` that nothing has written (R36, U5). Safe. -/
  | unwrittenByte (i : Nat)
  /-- Raised by `DATA.LAST`: the bytes gathered are not the number the header declares, the contract violation that
  "cannot occur" (R235). Safe. -/
  | contractViolation
  deriving DecidableEq, Repr

/-- Refusals: no meaning for what is asked. -/
inductive Refusal where
  /-- Raised by `exec` for an instruction that has no meaning in this model. No arm does. Safe. -/
  | notModelled (mnemonic : String)
  /-- Raised by the step, and by `DATA`, in a state outside the invariant of R29, which "is given no meaning by this
  spec" (R11, U6; log 7). Safe. -/
  | outsideInvariant
  /-- Raised by a sub-operation of `DATA` executed in a state its row's `when` does not name (R108; log 8). Safe. -/
  | notSelected (mnemonic : String)
  deriving DecidableEq, Repr

/-- What a step or a meaning answers. -/
abbrev Outcome := Host.Outcome State Fault Refusal

end Sys2Proof.Machine
end

