-- ==== Sys2Proof/Machine/Flags.lean ====
section
/-! DEFINITION. `SWCB`, the only flag (spec/10_state.md R25): its three writes and its one reading. No arithmetic flag,
condition code or predicate exists. -/

namespace Sys2Proof.Machine

/-- `SWCB` as `CALL.BA` leaves it (R25, R105). -/
def swcbAfterCallBa : Bool := true

/-- `SWCB` as a bare header leaves it (R25, R120). -/
def swcbAfterBareHeader : Bool := false

/-- `SWCB` as the completion of a packet leaves it (R25, R124). -/
def swcbAfterCompletion : Bool := false

/-- "Direction is `StationToDevice` iff the packet began with a call byte" (R25, R76). -/
def dirOfSwcb (swcb : Bool) : Dir := if swcb then .stationToDevice else .deviceToStation

end Sys2Proof.Machine
end

