-- ==== Sys2Proof/Machine/Events.lean ====
section
/-! DEFINITION. The output ports of spec/10_state.md R41: the kind codes of R88, the kind tags and the field labels of
R87, R190, R195. -/

namespace Sys2Proof.Machine

/-- The kind code on the `evt_kind` port (R88). -/
def EventBody.kindCode : EventBody → Nat
  | .callbyte => 0
  | .normalInquiry _ => 1
  | .requestAcknowledgment _ => 2
  | .normalOperationResumed => 3
  | .trackPowerOff => 4
  | .shortCircuit => 5
  | .emergencyStop => 6
  | .serviceModeEntry => 7
  | .acknowledgmentResponse => 8
  | .genericRequest _ => 9
  | .accessoryDecoderInformationRequest _ => 10
  | .accessoryDecoderInformationResponse _ _ _ => 11
  | .accessoryDecoderOperationRequest _ _ _ => 12
  | .locomotiveSpeedAndDirectionOperation _ _ _ _ => 13
  | .functionOperationInstructions _ _ => 14
  | .softwareVersion _ _ => 15
  | .status _ => 16
  | .transferError => 17
  | .commandStationBusy => 18
  | .instructionNotSupported => 19
  | .unknown => 20
  | .setFunctionState _ _ => 21
  | .functionStatusResponse _ => 22
  | .functionStatusHighResponse _ => 23
  | .functionStateHighResponse _ => 24

/-- The source's kind tags in code order, then the four names of D12 (R88). -/
def kindTags : List String :=
  ["callbyte", "normal_inquiry", "request_acknowledgment", "normal_operation_resumed", "track_power_off",
   "short_circuit", "emergency_stop", "service_mode_entry", "acknowledgment_response", "generic_request",
   "accessory_decoder_information_request", "accessory_decoder_information_response",
   "accessory_decoder_operation_request", "locomotive_speed_and_direction_operation",
   "function_operation_instructions", "software_version", "status", "transfer_error", "command_station_busy",
   "instruction_not_supported", "unknown", "set_function_state", "function_status_response",
   "function_status_high_response", "function_state_high_response"]

/-- The kind tag of an event (R41, R87). -/
def EventBody.tag (b : EventBody) : String := kindTags.getD b.kindCode ""

/-- The kinds a call byte emits (R107): `callbyte`, `normal_inquiry`, `request_acknowledgment`. -/
def EventBody.isCallKind (b : EventBody) : Bool := b.kindCode < 3

/-- The function set an event carries, where its kind has the field `functions` (R87). -/
def EventBody.functions? : EventBody → Option FnSet
  | .functionOperationInstructions _ f => some f
  | .setFunctionState _ f => some f
  | .functionStatusResponse f => some f
  | .functionStatusHighResponse f => some f
  | .functionStateHighResponse f => some f
  | _ => none

/-- The number a step mode stands for (R87). -/
def Steps.count : Steps → Nat
  | .s14 => 14
  | .s27 => 27
  | .s28 => 28
  | .s128 => 128

/-- The label of an output (R195). -/
def Output.label : Output → String
  | .one => "1"
  | .two => "2"

/-- The label of an output state (R195). -/
def OutputState.label : OutputState → String
  | .activate => "Activate"
  | .deactivate => "Deactivate"

/-- The source's name of a turnout state code (R190). -/
def turnoutName (z : BitVec 2) : String :=
  if z = 0b00 then "not yet controlled"
  else if z = 0b01 then "turned"
  else if z = 0b10 then "straight"
  else "invalid"

/-- `evt_valid` (R41). -/
def State.evtValid (s : State) : Bool := s.evt.isSome

/-- `evt_kind` (R41, R88); of no meaning while `evt_valid` is 0. -/
def State.evtKind (s : State) : Option Nat := s.evt.map (·.body.kindCode)

end Sys2Proof.Machine
end

