-- ==== Sys2Proof/Machine/Operands.lean ====
section
/-! DEFINITION. Operand assembly (spec/30_encoding.md R80): every computation a packet-level operation makes on its
bytes, each once. All are unsigned and zero-extended; spec/20_memory.md R66 gives the ranges. -/

namespace Sys2Proof.Machine

/-- The value loaded into `REM`: `header[3:0] + 1`, 1..16 (R26, R66). -/
def remOfHeader (h : Byte) : BitVec 5 := (h.extractLsb' 0 4).setWidth 5 + 1

/-! ### Locomotive (R160, R161, R167) -/

/-- `loco_addr(AH, AL)` (R160): the low byte alone if the high byte is `0x00`, else `{AH[5:0], AL}`. -/
def locoAddr (ah al : Byte) : BitVec 14 :=
  if ah = 0x00 then al.setWidth 14 else ah.extractLsb' 0 6 ++ al

/-- The direction bit of a speed byte, `RV[7]` (R161). -/
def directionOf (rv : Byte) : Bool := rv.getLsbD 7

/-- `raw`, the low seven bits of a speed byte (R161). -/
def rawSpeed (rv : Byte) : BitVec 7 := rv.extractLsb' 0 7

/-- The speed of a speed byte (R161): raw 0 is `Step(0)`, raw 1 emergency stop, any other raw is `Step(raw - 1)`.
The same computation in all four step modes (U9; log 21). -/
def speedOf (rv : Byte) : Speed :=
  if rawSpeed rv = 0 then .step 0
  else if rawSpeed rv = 1 then .emergencyStop
  else .step (rawSpeed rv - 1)

/-- The event of a speed and direction operation (R162). -/
def speedBody (steps : Steps) (ah al rv : Byte) : EventBody :=
  .locomotiveSpeedAndDirectionOperation (locoAddr ah al) steps (directionOf rv) (speedOf rv)

/-- A set of two: the bitwise or of the masks and of the bits (R167). -/
def FnSet.or (x y : FnSet) : FnSet := ⟨x.mask ||| y.mask, x.bits ||| y.bits⟩

/-- A run of functions starting at F`k`: the value's bits from bit `k` up, under a mask (R167). -/
def fnRun (mask : BitVec 29) (k : Nat) (v : BitVec 29) : FnSet := ⟨mask, v <<< k⟩

/-- `G1(D)`: F0 is bit 4, F1 to F4 are bits 0 to 3 (R167). -/
def fnG1 (d : Byte) : FnSet :=
  ⟨0x0000001F, ((d.extractLsb' 0 4).setWidth 29 <<< 1) ||| (d.extractLsb' 4 1).setWidth 29⟩

/-- `G2(D)`: F5 to F8 are bits 0 to 3 (R167). UNVERIFIED layout (log 13). -/
def fnG2 (d : Byte) : FnSet := fnRun 0x000001E0 5 ((d.extractLsb' 0 4).setWidth 29)

/-- `G3(D)`: F9 to F12 are bits 0 to 3 (R167). UNVERIFIED layout (log 13). -/
def fnG3 (d : Byte) : FnSet := fnRun 0x00001E00 9 ((d.extractLsb' 0 4).setWidth 29)

/-- `G4(D)`: F13 to F20 are bits 0 to 7 (R167). UNVERIFIED layout (log 13). -/
def fnG4 (d : Byte) : FnSet := fnRun 0x001FE000 13 (d.setWidth 29)

/-- `G5(D)`: F21 to F28 are bits 0 to 7 (R167). UNVERIFIED layout (log 13). -/
def fnG5 (d : Byte) : FnSet := fnRun 0x1FE00000 21 (d.setWidth 29)

/-- The second byte of `LOCO.FNSTAT`: F5 to F12 are bits 0 to 7 (R177). UNVERIFIED layout (log 13). -/
def fnF5to12 (d : Byte) : FnSet := fnRun 0x00001FE0 5 (d.setWidth 29)

/-! ### Accessory (R190, R191, R193, R195) -/

/-- `acc_pair(A, n)`: `(4A + 2n, 4A + 2n + 1)` (R191). -/
def accPair (a : Byte) (n : BitVec 1) : AddressPair :=
  ⟨BitVec.ofNat 10 (4 * a.toNat + 2 * n.toNat), BitVec.ofNat 10 (4 * a.toNat + 2 * n.toNat + 1)⟩

/-- The output address of an operation request: `4A + B[2:1]` (R195). -/
def opAddress (a b : Byte) : BitVec 10 := BitVec.ofNat 10 (4 * a.toNat + (b.extractLsb' 1 2).toNat)

/-- The output of an operation request: `B[0]` (R195). -/
def outputOf (b : Byte) : Output := if b.getLsbD 0 then .two else .one

/-- The output state of an operation request: `B[3] = 1` is "Activate" (R195; C7, U8: UNVERIFIED polarity, log 12). -/
def outputStateOf (b : Byte) : OutputState := if b.getLsbD 3 then .activate else .deactivate

/-! ### Station (R218, R220) -/

/-- The status flags of `rp--smeo` (R218). UNVERIFIED bit positions (log 13). -/
def statusFlagsOf (st : Byte) : StatusFlags where
  ramCheckError := st.getLsbD 7
  powerUp := st.getLsbD 6
  serviceMode := st.getLsbD 3
  startMode := if st.getLsbD 2 then .automatic else .manual
  emergencyStop := st.getLsbD 1
  emergencyOff := st.getLsbD 0

/-- The version of a byte: major is the high nibble, minor the low one (R220). -/
def versionOf (v : Byte) : Version := ⟨v.extractLsb' 4 4, v.extractLsb' 0 4⟩

end Sys2Proof.Machine
end

