-- ==== Sys2Proof/Machine/Ops.lean ====
section
/-! DEFINITION. The named operations over the payload buffer and the registers. The block takes no exception and
returns from none (spec/60_exceptions.md R230, R242, R243), so no operation for either exists. -/

namespace Sys2Proof.Machine

/-! ### The payload buffer (R27, R50 to R56) -/

/-- The byte listed at an address. -/
def Memory.byteAt : Memory → Nat → Option Byte
  | [], _ => none
  | (a, b) :: m, i => if a = i then some b else Memory.byteAt m i

/-- `MemRead(i, 1)` (R10, R50). An index outside 0..16 and a byte nothing has written fault (log 5, log 17). -/
def Memory.read (m : Memory) (i : Nat) : Except Fault Byte :=
  if i < Config.bufDepth then
    match m.byteAt i with
    | some b => .ok b
    | none => .error (.unwrittenByte i)
  else .error (.bufIndex i)

/-- The cells with the byte at an address replaced, or put in at its place in the order. -/
def Memory.put : Memory → Nat → Byte → Memory
  | [], i, v => [(i, v)]
  | (a, b) :: m, i, v =>
    if i < a then (i, v) :: (a, b) :: m
    else if a = i then (i, v) :: m
    else (a, b) :: Memory.put m i v

/-- `MemWrite(i, 1, v)` (R10, R50): one byte. -/
def Memory.write (m : Memory) (i : Nat) (v : Byte) : Except Fault Memory :=
  if i < Config.bufDepth then .ok (m.put i v) else .error (.bufIndex i)

/-- `BUF[0 .. n-1]` in order, as the completing step reads it (R124, R127). -/
def Memory.readBelow (m : Memory) : Nat → Except Fault (List Byte)
  | 0 => .ok []
  | n + 1 =>
    match Memory.readBelow m n, m.read n with
    | .ok bs, .ok b => .ok (bs ++ [b])
    | .error f, _ => .error f
    | .ok _, .error f => .error f

/-- The addresses strictly rise. -/
def Memory.rising : Memory → Bool
  | [] => true
  | (a, _) :: m => m.all (fun c => decide (a < c.1)) && Memory.rising m

/-- The canonical form: addresses strictly rising, each an index of `BUF`. (An unlisted byte has no value, so no entry
can equal what an unlisted address reads as.) -/
def Memory.wf (m : Memory) : Bool := m.rising && m.all fun c => decide (c.1 < Config.bufDepth)

/-! ### Register updates -/

/-- `ADDR <- a` (R102). -/
def State.setAddr (s : State) (a : BitVec 5) : State := { s with addr := a }

/-- `emit kind @ [t0, t1]` (R10, R152). -/
def State.emit (s : State) (body : EventBody) (t0 t1 : Config.Time) : State :=
  { s with evt := some ⟨body, t0, t1⟩ }

/-- `emit none` (R10). -/
def State.emitNone (s : State) : State := { s with evt := none }

/-- An event over the symbol's own time range, as a call byte emits it (R87, R103, R104, R106). -/
def State.emitSymbol (s : State) (body : EventBody) : State := s.emit body s.port.symStart s.port.symEnd

/-- An event over the packet's time range: from `START` to the end of the completing symbol (R87, R124). -/
def State.emitPacket (s : State) (body : EventBody) : State := s.emit body s.start s.port.symEnd

/-- The assembler registers as `CALL.BA` leaves them: a packet is open, its header not yet read (R105). -/
def State.openCalled (s : State) (t : Config.Time) : State :=
  { s with asm := .awaitingHeader, swcb := swcbAfterCallBa, rem := 0, len := 0, start := t }

/-- `SWCB` and `START` as a bare header leaves them (R120). -/
def State.openBare (s : State) (t : Config.Time) : State := { s with swcb := swcbAfterBareHeader, start := t }

/-- `LEN`, `REM` and `ASM` as a header byte leaves them (R120, R121). -/
def State.startCollecting (s : State) (h : Byte) : State :=
  { s with len := 1, rem := remOfHeader h, asm := .collecting }

/-- `LEN <- LEN + 1`, `REM <- REM - 1` (R122). -/
def State.advance (s : State) : State := { s with len := s.len + 1, rem := s.rem - 1 }

/-- The explicit return to `Idle` of a completed packet (R124, R125). -/
def State.closePacket (s : State) : State :=
  { s with asm := .idle, swcb := swcbAfterCompletion, rem := 0, len := 0 }

/-- `BUF <- m`. -/
def State.setBuf (s : State) (m : Memory) : State := { s with buf := m }

/-- The ports of a new cycle: its sample is taken off the inputs, and no event is driven yet (R40, R41, R274). -/
def State.latch (s : State) (p : Ports) (rest : List Ports) : State :=
  { s with port := p, inputs := rest, evt := none }

/-- A cycle with `rst = 1`: the reset state of R35, no symbol consumed, no event (R260). `BUF` and `START`, unspecified
there, take the values of `State.reset` (log 19). The environment's inputs are no state of the block and go on. -/
def State.resetCycle (s : State) : State := { State.reset with port := s.port, inputs := s.inputs }

/-- `BUF[i] <- b`, then the rest of the step; the spec's only write primitive (R50). -/
def storeThen (s : State) (i : Nat) (b : Byte) (k : State → Outcome) : Outcome :=
  match s.buf.write i b with
  | .ok m => k (s.setBuf m)
  | .error f => .fault f

/-! ### The invariant of the reachable states (R29) -/

/-- (c) of R29: `1 <= REM <= 16`, `1 <= LEN <= 16`, `LEN + REM = BUF[0][3:0] + 2`. -/
def State.collectingLawful (s : State) : Bool :=
  match s.buf.read 0 with
  | .ok h =>
    decide (1 ≤ s.rem.toNat) && decide (s.rem.toNat ≤ 16) && decide (1 ≤ s.len.toNat) && decide (s.len.toNat ≤ 16)
      && s.len.toNat + s.rem.toNat == headerCount h + 2
  | .error _ => false

/-- R29 (a), (b), (c); (d) follows from (a). The step function is defined on exactly these states (R11). -/
def State.lawful (s : State) : Bool :=
  match s.asm with
  | .idle => !s.swcb && s.rem == 0 && s.len == 0
  | .awaitingHeader => s.swcb && s.rem == 0 && s.len == 0
  | .collecting => s.collectingLawful

end Sys2Proof.Machine
end

