-- ==== Sys2Proof/Machine/Accessory.lean ====
section
/-! DEFINITION. The accessory operations (spec/44_accessory.md R192, R193, R195). -/

namespace Sys2Proof.Machine

/-- `ACC.INFOREQ` (R192): the address pair of the nibble `B[0]` -/
def accInforeqBody (a b : Byte) : EventBody := .accessoryDecoderInformationRequest (accPair a (b.extractLsb' 0 1))

/-- `ACC.INFOREQ` (R192) as the completing step runs it. -/
def execAccInforeq (a b : Byte) (s : State) : Outcome := .next (s.emitPacket (accInforeqBody a b))

/-- `ACC.INFORESP` (R193): `ittnzzzz`, type, pair, the two turnout states and the incomplete bit -/
def accInforespBody (a b : Byte) : EventBody := .accessoryDecoderInformationResponse (b.extractLsb' 5 2) (accPair a (b.extractLsb' 4 1))
    ⟨b.extractLsb' 0 2, b.extractLsb' 2 2, b.getLsbD 7⟩

/-- `ACC.INFORESP` (R193) as the completing step runs it. -/
def execAccInforesp (a b : Byte) (s : State) : Outcome := .next (s.emitPacket (accInforespBody a b))

/-- `ACC.OPREQ` (R195): `----dbbo`, output address, output and activation -/
def accOpreqBody (a b : Byte) : EventBody := .accessoryDecoderOperationRequest (opAddress a b) (outputOf b) (outputStateOf b)

/-- `ACC.OPREQ` (R195) as the completing step runs it. -/
def execAccOpreq (a b : Byte) (s : State) : Outcome := .next (s.emitPacket (accOpreqBody a b))

end Sys2Proof.Machine
end

