-- ==== Sys2Proof/Machine/Broadcast.lean ====
section
/-! DEFINITION. The broadcast operations (spec/42_dispatcher.md R145 to R149). A packet-level operation writes no
register and no flag (R140): its meaning drives the event over the packet's time range; the register writes are those of
the completing step (R124). -/

namespace Sys2Proof.Machine

/-- `BC.RESUME` (R145) -/
def bcResumeBody : EventBody := .normalOperationResumed

/-- `BC.RESUME` (R145) as the completing step runs it. -/
def execBcResume (s : State) : Outcome := .next (s.emitPacket bcResumeBody)

/-- `BC.PWROFF` (R146) -/
def bcPwroffBody : EventBody := .trackPowerOff

/-- `BC.PWROFF` (R146) as the completing step runs it. -/
def execBcPwroff (s : State) : Outcome := .next (s.emitPacket bcPwroffBody)

/-- `BC.SHORT` (R147) -/
def bcShortBody : EventBody := .shortCircuit

/-- `BC.SHORT` (R147) as the completing step runs it. -/
def execBcShort (s : State) : Outcome := .next (s.emitPacket bcShortBody)

/-- `BC.ESTOP` (R148) -/
def bcEstopBody : EventBody := .emergencyStop

/-- `BC.ESTOP` (R148) as the completing step runs it. -/
def execBcEstop (s : State) : Outcome := .next (s.emitPacket bcEstopBody)

/-- `BC.SVCMODE` (R149) -/
def bcSvcmodeBody : EventBody := .serviceModeEntry

/-- `BC.SVCMODE` (R149) as the completing step runs it. -/
def execBcSvcmode (s : State) : Outcome := .next (s.emitPacket bcSvcmodeBody)

end Sys2Proof.Machine
end

