-- ==== Sys2Proof/Machine/Locomotive.lean ====
section
/-! DEFINITION. The locomotive operations (spec/43_locomotive.md R162 to R179): speed and direction, function
operations, function status. Each is a pure function of the payload (R140). -/

namespace Sys2Proof.Machine

/-- `LOCO.SPD14` (R162): address, 14 steps, direction and speed -/
def locoSpd14Body (ah al rv : Byte) : EventBody := speedBody .s14 ah al rv

/-- `LOCO.SPD14` (R162) as the completing step runs it. -/
def execLocoSpd14 (ah al rv : Byte) (s : State) : Outcome := .next (s.emitPacket (locoSpd14Body ah al rv))

/-- `LOCO.SPD27` (R163): address, 27 steps, direction and speed -/
def locoSpd27Body (ah al rv : Byte) : EventBody := speedBody .s27 ah al rv

/-- `LOCO.SPD27` (R163) as the completing step runs it. -/
def execLocoSpd27 (ah al rv : Byte) (s : State) : Outcome := .next (s.emitPacket (locoSpd27Body ah al rv))

/-- `LOCO.SPD28` (R164): address, 28 steps, direction and speed -/
def locoSpd28Body (ah al rv : Byte) : EventBody := speedBody .s28 ah al rv

/-- `LOCO.SPD28` (R164) as the completing step runs it. -/
def execLocoSpd28 (ah al rv : Byte) (s : State) : Outcome := .next (s.emitPacket (locoSpd28Body ah al rv))

/-- `LOCO.SPD128` (R165): address, 128 steps, direction and speed -/
def locoSpd128Body (ah al rv : Byte) : EventBody := speedBody .s128 ah al rv

/-- `LOCO.SPD128` (R165) as the completing step runs it. -/
def execLocoSpd128 (ah al rv : Byte) (s : State) : Outcome := .next (s.emitPacket (locoSpd128Body ah al rv))

/-- `LOCO.FN.G1` (R168): group 1 functions on or off -/
def locoFnG1Body (ah al d : Byte) : EventBody := .functionOperationInstructions (locoAddr ah al) (fnG1 d)

/-- `LOCO.FN.G1` (R168) as the completing step runs it. -/
def execLocoFnG1 (ah al d : Byte) (s : State) : Outcome := .next (s.emitPacket (locoFnG1Body ah al d))

/-- `LOCO.FN.G2` (R169): group 2 functions on or off -/
def locoFnG2Body (ah al d : Byte) : EventBody := .functionOperationInstructions (locoAddr ah al) (fnG2 d)

/-- `LOCO.FN.G2` (R169) as the completing step runs it. -/
def execLocoFnG2 (ah al d : Byte) (s : State) : Outcome := .next (s.emitPacket (locoFnG2Body ah al d))

/-- `LOCO.FN.G3` (R170): group 3 functions on or off -/
def locoFnG3Body (ah al d : Byte) : EventBody := .functionOperationInstructions (locoAddr ah al) (fnG3 d)

/-- `LOCO.FN.G3` (R170) as the completing step runs it. -/
def execLocoFnG3 (ah al d : Byte) (s : State) : Outcome := .next (s.emitPacket (locoFnG3Body ah al d))

/-- `LOCO.FN.G4` (R171): group 4 functions on or off -/
def locoFnG4Body (ah al d : Byte) : EventBody := .functionOperationInstructions (locoAddr ah al) (fnG4 d)

/-- `LOCO.FN.G4` (R171) as the completing step runs it. -/
def execLocoFnG4 (ah al d : Byte) (s : State) : Outcome := .next (s.emitPacket (locoFnG4Body ah al d))

/-- `LOCO.FNST.G1` (R172): the "set" status of group 1 -/
def locoFnstG1Body (ah al d : Byte) : EventBody := .setFunctionState (locoAddr ah al) (fnG1 d)

/-- `LOCO.FNST.G1` (R172) as the completing step runs it. -/
def execLocoFnstG1 (ah al d : Byte) (s : State) : Outcome := .next (s.emitPacket (locoFnstG1Body ah al d))

/-- `LOCO.FNST.G2` (R173): the "set" status of group 2 -/
def locoFnstG2Body (ah al d : Byte) : EventBody := .setFunctionState (locoAddr ah al) (fnG2 d)

/-- `LOCO.FNST.G2` (R173) as the completing step runs it. -/
def execLocoFnstG2 (ah al d : Byte) (s : State) : Outcome := .next (s.emitPacket (locoFnstG2Body ah al d))

/-- `LOCO.FNST.G3` (R174): the "set" status of group 3 -/
def locoFnstG3Body (ah al d : Byte) : EventBody := .setFunctionState (locoAddr ah al) (fnG3 d)

/-- `LOCO.FNST.G3` (R174) as the completing step runs it. -/
def execLocoFnstG3 (ah al d : Byte) (s : State) : Outcome := .next (s.emitPacket (locoFnstG3Body ah al d))

/-- `LOCO.FNST.G4` (R175): the "set" status of group 4 -/
def locoFnstG4Body (ah al d : Byte) : EventBody := .setFunctionState (locoAddr ah al) (fnG4 d)

/-- `LOCO.FNST.G4` (R175) as the completing step runs it. -/
def execLocoFnstG4 (ah al d : Byte) (s : State) : Outcome := .next (s.emitPacket (locoFnstG4Body ah al d))

/-- `LOCO.FNST.G5` (R176): the "set" status of group 5 -/
def locoFnstG5Body (ah al d : Byte) : EventBody := .setFunctionState (locoAddr ah al) (fnG5 d)

/-- `LOCO.FNST.G5` (R176) as the completing step runs it. -/
def execLocoFnstG5 (ah al d : Byte) (s : State) : Outcome := .next (s.emitPacket (locoFnstG5Body ah al d))

/-- `LOCO.FNSTAT` (R177): F0 to F12, no address -/
def locoFnstatBody (s0 s1 : Byte) : EventBody := .functionStatusResponse ((fnG1 s0).or (fnF5to12 s1))

/-- `LOCO.FNSTAT` (R177) as the completing step runs it. -/
def execLocoFnstat (s0 s1 : Byte) (s : State) : Outcome := .next (s.emitPacket (locoFnstatBody s0 s1))

/-- `LOCO.FNHI` (R178): F13 to F28, no address -/
def locoFnhiBody (b2 b3 : Byte) : EventBody := .functionStateHighResponse ((fnG4 b2).or (fnG5 b3))

/-- `LOCO.FNHI` (R178) as the completing step runs it. -/
def execLocoFnhi (b2 b3 : Byte) (s : State) : Outcome := .next (s.emitPacket (locoFnhiBody b2 b3))

/-- `LOCO.FNSTATHI` (R179): F13 to F28; `payload[4]` is not read -/
def locoFnstathiBody (b2 b3 _b4 : Byte) : EventBody := .functionStatusHighResponse ((fnG4 b2).or (fnG5 b3))

/-- `LOCO.FNSTATHI` (R179) as the completing step runs it. -/
def execLocoFnstathi (b2 b3 b4 : Byte) (s : State) : Outcome := .next (s.emitPacket (locoFnstathiBody b2 b3 b4))

end Sys2Proof.Machine
end

