-- ==== Sys2Proof/Machine/Station.lean ====
section
/-! DEFINITION. The station operations (spec/45_station.md R210 to R220): acknowledgment, generic requests, errors,
status, version. -/

namespace Sys2Proof.Machine

/-- `ACK.RESP` (R210) -/
def ackRespBody : EventBody := .acknowledgmentResponse

/-- `ACK.RESP` (R210) as the completing step runs it. -/
def execAckResp (s : State) : Outcome := .next (s.emitPacket ackRespBody)

/-- `REQ.VERSION` (R211) -/
def reqVersionBody : EventBody := .genericRequest .softwareVersionRequest

/-- `REQ.VERSION` (R211) as the completing step runs it. -/
def execReqVersion (s : State) : Outcome := .next (s.emitPacket reqVersionBody)

/-- `REQ.STATUS` (R212) -/
def reqStatusBody : EventBody := .genericRequest .statusRequest

/-- `REQ.STATUS` (R212) as the completing step runs it. -/
def execReqStatus (s : State) : Outcome := .next (s.emitPacket reqStatusBody)

/-- `REQ.STOP` (R213) -/
def reqStopBody : EventBody := .genericRequest .stopOperationsRequest

/-- `REQ.STOP` (R213) as the completing step runs it. -/
def execReqStop (s : State) : Outcome := .next (s.emitPacket reqStopBody)

/-- `REQ.RESUME` (R214) -/
def reqResumeBody : EventBody := .genericRequest .resumeOperationsRequest

/-- `REQ.RESUME` (R214) as the completing step runs it. -/
def execReqResume (s : State) : Outcome := .next (s.emitPacket reqResumeBody)

/-- `ERR.TRANSFER` (R215): an event about the bus peer, no fault of the block -/
def errTransferBody : EventBody := .transferError

/-- `ERR.TRANSFER` (R215) as the completing step runs it. -/
def execErrTransfer (s : State) : Outcome := .next (s.emitPacket errTransferBody)

/-- `ERR.BUSY` (R216) -/
def errBusyBody : EventBody := .commandStationBusy

/-- `ERR.BUSY` (R216) as the completing step runs it. -/
def execErrBusy (s : State) : Outcome := .next (s.emitPacket errBusyBody)

/-- `ERR.NOTSUPP` (R217) -/
def errNotsuppBody : EventBody := .instructionNotSupported

/-- `ERR.NOTSUPP` (R217) as the completing step runs it. -/
def execErrNotsupp (s : State) : Outcome := .next (s.emitPacket errNotsuppBody)

/-- `STA.STATUS` (R218): the six flags of `rp--smeo` -/
def staStatusBody (st : Byte) : EventBody := .status (statusFlagsOf st)

/-- `STA.STATUS` (R218) as the completing step runs it. -/
def execStaStatus (st : Byte) (s : State) : Outcome := .next (s.emitPacket (staStatusBody st))

/-- `STA.VERSION` (R220): version nibbles and opaque station id -/
def staVersionBody (v stationId : Byte) : EventBody := .softwareVersion (versionOf v) stationId

/-- `STA.VERSION` (R220) as the completing step runs it. -/
def execStaVersion (v stationId : Byte) (s : State) : Outcome := .next (s.emitPacket (staVersionBody v stationId))

end Sys2Proof.Machine
end

