-- ==== Sys2Proof/Machine/Dispatcher.lean ====
section
/-! DEFINITION. The dispatcher (spec/42_dispatcher.md R140, R141, R150): from a completed packet to the kind and fields of
its event. -/

namespace Sys2Proof.Machine

/-- `UNKNOWN` (R150): no field, not even the header or the direction. -/
def unknownBody (_dir : Dir) (_payload : List Byte) : EventBody := .unknown

/-- `UNKNOWN` as the completing step runs it: an ordinary event over the whole packet's time range, no fault (R150). -/
def execUnknown (dir : Dir) (payload : List Byte) (s : State) : Outcome := .next (s.emitPacket (unknownBody dir payload))

/-- The kind and fields a packet-level instruction reports; symbol-level instructions report none of their own here. -/
def packetBody : Instr → Option EventBody
  | .callRqack _ _ | .callFb _ _ | .callInq _ _ | .callBa _ _ => none
  | .data _ | .dataHdr0 _ | .dataHdr1 _ | .dataBody _ | .dataLast _ => none
  | .bcResume => some bcResumeBody
  | .bcPwroff => some bcPwroffBody
  | .bcShort => some bcShortBody
  | .bcEstop => some bcEstopBody
  | .bcSvcmode => some bcSvcmodeBody
  | .ackResp => some ackRespBody
  | .reqVersion => some reqVersionBody
  | .reqStatus => some reqStatusBody
  | .reqStop => some reqStopBody
  | .reqResume => some reqResumeBody
  | .accInforeq a b => some (accInforeqBody a b)
  | .accOpreq a b => some (accOpreqBody a b)
  | .locoSpd14 ah al rv => some (locoSpd14Body ah al rv)
  | .locoSpd27 ah al rv => some (locoSpd27Body ah al rv)
  | .locoSpd28 ah al rv => some (locoSpd28Body ah al rv)
  | .locoSpd128 ah al rv => some (locoSpd128Body ah al rv)
  | .locoFnG1 ah al d => some (locoFnG1Body ah al d)
  | .locoFnG2 ah al d => some (locoFnG2Body ah al d)
  | .locoFnG3 ah al d => some (locoFnG3Body ah al d)
  | .locoFnG4 ah al d => some (locoFnG4Body ah al d)
  | .locoFnstG1 ah al d => some (locoFnstG1Body ah al d)
  | .locoFnstG2 ah al d => some (locoFnstG2Body ah al d)
  | .locoFnstG3 ah al d => some (locoFnstG3Body ah al d)
  | .locoFnstG4 ah al d => some (locoFnstG4Body ah al d)
  | .locoFnstG5 ah al d => some (locoFnstG5Body ah al d)
  | .accInforesp a b => some (accInforespBody a b)
  | .errTransfer => some errTransferBody
  | .errBusy => some errBusyBody
  | .errNotsupp => some errNotsuppBody
  | .staStatus st => some (staStatusBody st)
  | .staVersion v stationId => some (staVersionBody v stationId)
  | .locoFnstat s0 s1 => some (locoFnstatBody s0 s1)
  | .locoFnhi b2 b3 => some (locoFnhiBody b2 b3)
  | .locoFnstathi b2 b3 b4 => some (locoFnstathiBody b2 b3 b4)
  | .unknown dir payload => some (unknownBody dir payload)

/-- `dispatch(dir, payload)`: "a pure, total function" on completed packets (R140, R141); a payload that is not framed is
no completed packet (R127) and is rejected. -/
def dispatch (dir : Dir) (payload : List Byte) : Except DecodeReject EventBody :=
  match decodePacket dir payload with
  | .error r => .error r
  | .ok i =>
    match packetBody i with
    | some body => .ok body
    | none => .error .notAPacket

/-- The completed packet handed to the dispatcher: a transient record of the completing step (R32, R127). -/
structure CompletedPacket where
  direction : Dir
  header : Byte
  payload : List Byte
  startTime : Config.Time
  endTime : Config.Time
  deriving DecidableEq, Repr

/-- The completed packet of a state whose last byte arrives now: `BUF[0 .. LEN-1]` without the checksum, from `START` to
the end of the checksum's symbol (R124, R127; log 25). -/
def completedPacket (s : State) : Except Fault CompletedPacket :=
  match s.buf.readBelow s.len.toNat with
  | .ok payload => .ok ⟨dirOfSwcb s.swcb, payload.headD 0, payload, s.start, s.port.symEnd⟩
  | .error f => .error f

end Sys2Proof.Machine
end

