-- ==== Sys2Proof/Machine/Assembler.lean ====
section
/-! DEFINITION. The packet assembler: the data-byte operations (spec/41_packet_assembler.md R120 to R124, and the
hand-over of spec/40_symbol_classifier.md R108). A sub-operation is `DATA` in the state its row names; in another state
it is refused (log 8). -/

namespace Sys2Proof.Machine

/-- `DATA.HDR0` (R120): the bare header of a device-to-station packet. -/
def execDataHdr0 (b : Byte) (s : State) : Outcome :=
  match s.asm with
  | .idle =>
    storeThen s 0 b fun t => .next ((t.openBare s.port.symStart).startCollecting b).emitNone
  | .awaitingHeader => .refused (.notSelected "DATA.HDR0")
  | .collecting => .refused (.notSelected "DATA.HDR0")

/-- `DATA.HDR1` (R121): the header of a station-to-device packet; `SWCB` and `START` are kept. -/
def execDataHdr1 (b : Byte) (s : State) : Outcome :=
  match s.asm with
  | .awaitingHeader => storeThen s 0 b fun t => .next (t.startCollecting b).emitNone
  | .idle => .refused (.notSelected "DATA.HDR1")
  | .collecting => .refused (.notSelected "DATA.HDR1")

/-- `DATA.BODY` (R122): the byte is appended, its value not examined. -/
def execDataBody (b : Byte) (s : State) : Outcome :=
  if s.asm = .collecting ∧ 1 < s.rem.toNat then
    storeThen s s.len.toNat b fun t => .next t.advance.emitNone
  else .refused (.notSelected "DATA.BODY")

/-- `DATA.LAST` (R124): stores the checksum, dispatches the bytes gathered before it, emits the packet's event over
`[START, in.t_end]` and returns to `Idle` (R125). -/
def execDataLast (b : Byte) (s : State) : Outcome :=
  if s.asm = .collecting ∧ s.rem.toNat = 1 then
    match completedPacket s with
    | .error f => .fault f
    | .ok packet =>
      match dispatch packet.direction packet.payload with
      | .error _ => .fault .contractViolation
      | .ok body =>
        storeThen s s.len.toNat b fun t => .next (t.emit body packet.startTime packet.endTime).closePacket
  else .refused (.notSelected "DATA.LAST")

/-- `DATA` (R108): the hand-over by the value of `ASM` before the step. `Collecting` with `REM = 0` is outside the
invariant and has no case (R11, R29; log 7). -/
def execData (b : Byte) (s : State) : Outcome :=
  match s.asm with
  | .idle => execDataHdr0 b s
  | .awaitingHeader => execDataHdr1 b s
  | .collecting =>
    if 1 < s.rem.toNat then execDataBody b s
    else if s.rem.toNat = 1 then execDataLast b s
    else .refused .outsideInvariant

end Sys2Proof.Machine
end

