-- ==== Sys2Proof/Machine/CallByte.lean ====
section
/-! DEFINITION. The call-byte operations (spec/40_symbol_classifier.md R102 to R106). Each begins with `ADDR <- a`
(R102); bit 7 of the symbol is read by none (R72). -/

namespace Sys2Proof.Machine

/-- `CALL.RQACK` (R104): a `request_acknowledgment` event over the symbol's time; the toggle does not apply. -/
def execCallRqack (_bit7 : BitVec 1) (a : BitVec 5) (s : State) : Outcome :=
  .next ((s.setAddr a).emitSymbol (.requestAcknowledgment a))

/-- `CALL.FB` (R106): a plain `callbyte` event; the assembler registers are unchanged (D8). -/
def execCallFb (_bit7 : BitVec 1) (a : BitVec 5) (s : State) : Outcome :=
  .next ((s.setAddr a).emitSymbol .callbyte)

/-- `CALL.INQ` (R103): a `normal_inquiry` event, withheld while `CFG_SHOW_INQUIRY` is 0; `ADDR` is written all the
same. -/
def execCallInq (_bit7 : BitVec 1) (a : BitVec 5) (s : State) : Outcome :=
  if s.port.cfgShowInquiry then .next ((s.setAddr a).emitSymbol (.normalInquiry a))
  else .next (s.setAddr a).emitNone

/-- `CALL.BA` (R105): opens a station-to-device packet from any state; a packet in progress is dropped without an event
(D10). -/
def execCallBa (_bit7 : BitVec 1) (a : BitVec 5) (s : State) : Outcome :=
  .next ((s.setAddr a).openCalled s.port.symStart).emitNone

end Sys2Proof.Machine
end

