-- ==== Sys2Proof/Machine/Dispatch.lean ====
section
/-! DEFINITION. The dispatch of an instruction to its meaning: one arm per row of spec/opcode_table.json. -/

namespace Sys2Proof.Machine

/-- The meaning of an instruction in a state. -/
def exec (i : Instr) (s : State) : Host.Outcome State Fault Refusal :=
  match i with
  | .callRqack bit7 a => Sys2Proof.Machine.execCallRqack bit7 a s
  | .callFb bit7 a => Sys2Proof.Machine.execCallFb bit7 a s
  | .callInq bit7 a => Sys2Proof.Machine.execCallInq bit7 a s
  | .callBa bit7 a => Sys2Proof.Machine.execCallBa bit7 a s
  | .data b => Sys2Proof.Machine.execData b s
  | .dataHdr0 b => Sys2Proof.Machine.execDataHdr0 b s
  | .dataHdr1 b => Sys2Proof.Machine.execDataHdr1 b s
  | .dataBody b => Sys2Proof.Machine.execDataBody b s
  | .dataLast b => Sys2Proof.Machine.execDataLast b s
  | .bcResume => Sys2Proof.Machine.execBcResume s
  | .bcPwroff => Sys2Proof.Machine.execBcPwroff s
  | .bcShort => Sys2Proof.Machine.execBcShort s
  | .bcEstop => Sys2Proof.Machine.execBcEstop s
  | .bcSvcmode => Sys2Proof.Machine.execBcSvcmode s
  | .ackResp => Sys2Proof.Machine.execAckResp s
  | .reqVersion => Sys2Proof.Machine.execReqVersion s
  | .reqStatus => Sys2Proof.Machine.execReqStatus s
  | .reqStop => Sys2Proof.Machine.execReqStop s
  | .reqResume => Sys2Proof.Machine.execReqResume s
  | .accInforeq a b => Sys2Proof.Machine.execAccInforeq a b s
  | .accOpreq a b => Sys2Proof.Machine.execAccOpreq a b s
  | .locoSpd14 ah al rv => Sys2Proof.Machine.execLocoSpd14 ah al rv s
  | .locoSpd27 ah al rv => Sys2Proof.Machine.execLocoSpd27 ah al rv s
  | .locoSpd28 ah al rv => Sys2Proof.Machine.execLocoSpd28 ah al rv s
  | .locoSpd128 ah al rv => Sys2Proof.Machine.execLocoSpd128 ah al rv s
  | .locoFnG1 ah al d => Sys2Proof.Machine.execLocoFnG1 ah al d s
  | .locoFnG2 ah al d => Sys2Proof.Machine.execLocoFnG2 ah al d s
  | .locoFnG3 ah al d => Sys2Proof.Machine.execLocoFnG3 ah al d s
  | .locoFnG4 ah al d => Sys2Proof.Machine.execLocoFnG4 ah al d s
  | .locoFnstG1 ah al d => Sys2Proof.Machine.execLocoFnstG1 ah al d s
  | .locoFnstG2 ah al d => Sys2Proof.Machine.execLocoFnstG2 ah al d s
  | .locoFnstG3 ah al d => Sys2Proof.Machine.execLocoFnstG3 ah al d s
  | .locoFnstG4 ah al d => Sys2Proof.Machine.execLocoFnstG4 ah al d s
  | .locoFnstG5 ah al d => Sys2Proof.Machine.execLocoFnstG5 ah al d s
  | .accInforesp a b => Sys2Proof.Machine.execAccInforesp a b s
  | .errTransfer => Sys2Proof.Machine.execErrTransfer s
  | .errBusy => Sys2Proof.Machine.execErrBusy s
  | .errNotsupp => Sys2Proof.Machine.execErrNotsupp s
  | .staStatus st => Sys2Proof.Machine.execStaStatus st s
  | .staVersion v stationId => Sys2Proof.Machine.execStaVersion v stationId s
  | .locoFnstat s0 s1 => Sys2Proof.Machine.execLocoFnstat s0 s1 s
  | .locoFnhi b2 b3 => Sys2Proof.Machine.execLocoFnhi b2 b3 s
  | .locoFnstathi b2 b3 b4 => Sys2Proof.Machine.execLocoFnstathi b2 b3 b4 s
  | .unknown dir payload => Sys2Proof.Machine.execUnknown dir payload s

end Sys2Proof.Machine
end

