-- ==== Sys2Proof/Machine/Fetch.lean ====
section
/-! DEFINITION. What a clock cycle presents, and in which order its conditions are tested (spec/60_exceptions.md R241,
spec/40_symbol_classifier.md R100): reset, a presented symbol, the error flag, then the symbol itself. -/

namespace Sys2Proof.Machine

/-- What a cycle comes to before any instruction runs. -/
inductive Fetched where
  /-- The cycle runs no instruction: reset, no symbol, or a skipped one. -/
  | done (t : State)
  /-- The cycle runs the instruction of its symbol. -/
  | run (i : Instr) (t : State)
  /-- A symbol in a state the spec gives no meaning. -/
  | stop (r : Refusal)
  deriving DecidableEq, Repr

/-- A cycle in which a symbol is presented and `rst` is low: refused outside the invariant (R11), skipped if flagged
(R101), else decoded. -/
def fetchSymbol (p : Ports) (t : State) : Fetched :=
  if t.lawful = false then .stop .outsideInvariant
  else if p.symErr then .done t
  else .run (decodeSymbol p.symValue) t

/-- One clock cycle up to the instruction. When no cycle is presented any more, nothing changes and nothing is emitted
(R40, R248; log 1). -/
def fetch (s : State) : Fetched :=
  match s.inputs with
  | [] => .done s.emitNone
  | p :: rest =>
    let t := s.latch p rest
    if p.rst then .done t.resetCycle
    else if p.symValid then fetchSymbol p t
    else .done t

/-! ### Presenting a table word (log 9) -/

/-- The sample of a cycle that presents a symbol, error flag clear, times 0, the toggle high. -/
def Ports.ofSymbol (v : Symbol) : Ports := ⟨false, true, false, v, 0, 0, true⟩

/-- The cells that hold bytes from an address up. -/
def cellsFrom : Nat → List Byte → Memory
  | _, [] => []
  | i, b :: bs => (i, b) :: cellsFrom (i + 1) bs

/-- A state in which the packet's bytes have all been gathered and its checksum byte (0x00, never read) is presented
next: the state the packet's symbols lead to (R74, R124). -/
def State.beforeChecksum (s : State) (dir : Dir) (payload : List Byte) : State :=
  { s with
    asm := .collecting
    swcb := decide (dir = .stationToDevice)
    rem := 1
    len := BitVec.ofNat 5 payload.length
    buf := cellsFrom 0 payload
    inputs := Ports.ofSymbol (dataSymbol 0) :: s.inputs }

/-- A code put where the next step takes its instruction from. -/
def State.present (s : State) : Code → State
  | .symbol v => { s with inputs := Ports.ofSymbol v :: s.inputs }
  | .packet dir payload => s.beforeChecksum dir payload

end Sys2Proof.Machine
end

