-- ==== Sys2Proof/Machine/Step.lean ====
section
/-! DEFINITION. One step of the block: one clock cycle (spec/00_scope.md R11, spec/10_state.md R40). -/

namespace Sys2Proof.Machine

/-- One clock cycle: at most one symbol is consumed and at most one event is driven (R11). -/
def step (s : State) : Host.Outcome State Fault Refusal :=
  match fetch s with
  | .done t => .next t
  | .run i t => exec i t
  | .stop r => .refused r

/-- The state in which the next step runs the instruction of a table word (log 9): a symbol is presented on the input
ports; a dispatch word's packet stands complete but for its checksum byte, which is presented. A number that is no
symbol and no dispatch word changes nothing. -/
def State.withFetchWord (s : State) (nbits w : Nat) : State :=
  match codeOfTableWord nbits w with
  | some c => s.present c
  | none => s

end Sys2Proof.Machine
end

