-- ==== Sys2Proof/Safety.lean ====
section
/-! DEFINITION. What counts as a safe run: the states the claims are about, the outcomes that are no stop, and when two
states differ only in what the spec leaves unspecified. -/

namespace Sys2Proof.Machine

/-- Every byte of the packet in progress has been written: `BUF[0 .. LEN-1]` can be read (R36, R52). -/
def State.bytesHeld (s : State) : Bool :=
  (List.range s.len.toNat).all fun i => (s.buf.byteAt i).isSome

/-- A safe state: the invariant of R29, the buffer in canonical form, the bytes of the packet in progress held. -/
def State.Safe (s : State) : Prop := s.lawful = true ∧ s.buf.wf = true ∧ s.bytesHeld = true

/-- A safe outcome: a next state, and a safe one. The block never stops (R230). -/
def SafeOutcome : Outcome → Prop
  | .next t => t.Safe
  | .fault _ => False
  | .refused _ => False

/-- A cycle that presents a symbol the block takes: `rst` low, `sym_valid` high, the error flag clear. -/
def Ports.Presents (p : Ports) (v : Symbol) : Prop :=
  p.rst = false ∧ p.symValid = true ∧ p.symErr = false ∧ p.symValue = v

/-- A cycle that presents a data byte the block takes. -/
def Ports.PresentsData (p : Ports) : Prop :=
  p.rst = false ∧ p.symValid = true ∧ p.symErr = false ∧ isCallByte p.symValue = false

/-- Two states that differ at most in what no rule reads: `BUF` at indices from `LEN` up, `START` in `Idle` (R36), `ADDR`
(R21), and what the ports showed in the last cycle. -/
def State.Agrees (s s' : State) : Prop :=
  s.asm = s'.asm ∧ s.swcb = s'.swcb ∧ s.rem = s'.rem ∧ s.len = s'.len ∧ s.inputs = s'.inputs ∧
  (s.asm ≠ .idle → s.start = s'.start) ∧ ∀ i, i < s.len.toNat → s.buf.byteAt i = s'.buf.byteAt i

end Sys2Proof.Machine
end

