-- ==== Sys2Proof/Certificates/Slice0/Obligations.lean ====
section
/-! DEFINITION. The statements about the model, one per obligation of OBLIGATIONS.json. R<n> is a rule of spec/. -/

open Sys2Proof Sys2Proof.Machine

/-! ### Encoding -/

/-- Decoding the encoding of a well-formed instruction gives it back; a sub-operation of `DATA` shares the bits of `DATA`
(R71, R79, R84, R85, R144). -/
def Obligations.DecodeOfEncodeIsTheInstruction : Prop :=
  ∀ i : Instr, i.wellFormed = true → decode (encode i) = .ok i.asDecoded

/-- Encoding what a code decodes to gives the code back, and it is a well-formed instruction: no bit is dropped. -/
def Obligations.EncodeOfDecodeIsTheCode : Prop :=
  ∀ (c : Code) (i : Instr), decode c = .ok i → encode i = c ∧ i.wellFormed = true ∧ c.wellFramed = true

/-- `dispatch` is total on completed packets (R140): every framed payload decodes, in both directions, to an instruction
that reports an event; no decoder reads past the payload (R52, R235), which has at most 16 bytes. -/
def Obligations.EveryFramedPacketIsDispatched : Prop :=
  ∀ (dir : Dir) (payload : List Byte), framed payload = true →
    payload.length ≤ 16 ∧
    ∃ i body, decodePacket dir payload = .ok i ∧ i.wellFormed = true ∧ packetBody i = some body ∧
      dispatch dir payload = .ok body

/-- R141: the order of lookups selects "the unique row whose `(match, mask)` fits `DW`, or `UNKNOWN` if none does". -/
def Obligations.LookupOrderSelectsTheMatchingRow : Prop :=
  ∀ (dir : Dir) (payload : List Byte), framed payload = true →
    selectOp dir payload = opOfDispatchWord (dispatchWord dir payload)

/-- R77: "The rows of rules R84, R85 and R144 are pairwise disjoint": no dispatch word fits two rows. -/
def Obligations.DispatchRowsAreDisjoint : Prop :=
  ∀ dw : BitVec 17, (dwRows.filter fun r => r.fits dw).length ≤ 1

/-- R71: the five match-and-mask patterns of the symbol level are disjoint, cover all 512 values and select the operation
the decoder gives; an error-flagged input selects none. -/
def Obligations.SymbolPatternsSelectTheOperation : Prop :=
  (∀ v : Symbol,
    ([(0x160, 0x100), (0x160, 0x120), (0x160, 0x140), (0x160, 0x160), (0x100, 0x000)].filter
      fun r : Symbol × Symbol => v &&& r.1 == r.2).length = 1 ∧
    (v &&& 0x160 = 0x100 → decodeSymbol v = .callRqack (v.extractLsb' 7 1) (v.extractLsb' 0 5)) ∧
    (v &&& 0x160 = 0x120 → decodeSymbol v = .callFb (v.extractLsb' 7 1) (v.extractLsb' 0 5)) ∧
    (v &&& 0x160 = 0x140 → decodeSymbol v = .callInq (v.extractLsb' 7 1) (v.extractLsb' 0 5)) ∧
    (v &&& 0x160 = 0x160 → decodeSymbol v = .callBa (v.extractLsb' 7 1) (v.extractLsb' 0 5)) ∧
    (v &&& 0x100 = 0x000 → decodeSymbol v = .data (v.extractLsb' 0 8))) ∧
  ∀ (p : Ports) (t : State) (i : Instr) (u : State), p.symErr = true → fetchSymbol p t ≠ .run i u

/-- Words written out bit by bit from the patterns of R71 and the dispatch words of R77 decode to the instruction they
stand for. How a word of 16 or 24 bits is read, and that payload bytes the dispatch word gives no bits to are 0
(`accOpreq 3 0`, `locoSpd128 0 0 0`, `staVersion 0 0`), is the model's choice (log 10). -/
def Obligations.SampleWordsDecode : Prop :=
  decodeTableWord 16 0b1_0_10_00001 = some (.callInq 0 1) ∧
  decodeTableWord 16 0b1_1_00_00011 = some (.callRqack 1 3) ∧
  decodeTableWord 16 0b1_0_11_00001 = some (.callBa 0 1) ∧
  decodeTableWord 16 0b1_0_01_00001 = some (.callFb 0 1) ∧
  decodeTableWord 16 0b0_01010010 = some (.data 0x52) ∧
  decodeTableWord 24 0b1_01100001_00000000 = some .bcPwroff ∧
  decodeTableWord 24 0b0_01010010_00000011 = some (.accOpreq 3 0) ∧
  decodeTableWord 24 0b0_11100100_00010011 = some (.locoSpd128 0 0 0) ∧
  decodeTableWord 24 0b1_01100011_00100001 = some (.staVersion 0 0)

/-- R88: the 25 kind codes and their tags, whatever the fields of the event are. -/
def Obligations.KindCodesFollowTheTable : Prop :=
  ∀ (a : BitVec 5) (req : RequestType) (p : AddressPair) (accType : BitVec 2) (extra : AccExtra) (o : BitVec 10)
    (out : Output) (outState : OutputState) (l : BitVec 14) (steps : Steps) (dirn : Bool) (spd : Speed) (f : FnSet)
    (version : Version) (stationId : BitVec 8) (flags : StatusFlags),
    [(.callbyte, 0, "callbyte"), (.normalInquiry a, 1, "normal_inquiry"),
     (.requestAcknowledgment a, 2, "request_acknowledgment"),
     (.normalOperationResumed, 3, "normal_operation_resumed"), (.trackPowerOff, 4, "track_power_off"),
     (.shortCircuit, 5, "short_circuit"), (.emergencyStop, 6, "emergency_stop"),
     (.serviceModeEntry, 7, "service_mode_entry"), (.acknowledgmentResponse, 8, "acknowledgment_response"),
     (.genericRequest req, 9, "generic_request"),
     (.accessoryDecoderInformationRequest p, 10, "accessory_decoder_information_request"),
     (.accessoryDecoderInformationResponse accType p extra, 11, "accessory_decoder_information_response"),
     (.accessoryDecoderOperationRequest o out outState, 12, "accessory_decoder_operation_request"),
     (.locomotiveSpeedAndDirectionOperation l steps dirn spd, 13, "locomotive_speed_and_direction_operation"),
     (.functionOperationInstructions l f, 14, "function_operation_instructions"),
     (.softwareVersion version stationId, 15, "software_version"),
     (.status flags, 16, "status"), (.transferError, 17, "transfer_error"),
     (.commandStationBusy, 18, "command_station_busy"),
     (.instructionNotSupported, 19, "instruction_not_supported"), (.unknown, 20, "unknown"),
     (.setFunctionState l f, 21, "set_function_state"),
     (.functionStatusResponse f, 22, "function_status_response"),
     (.functionStatusHighResponse f, 23, "function_status_high_response"),
     (.functionStateHighResponse f, 24, "function_state_high_response")].all
      (fun r : EventBody × Nat × String => r.1.kindCode == r.2.1 && r.1.tag == r.2.2) = true

/-! ### The step -/

/-- A step runs the decoded instruction (R11, R100): where a cycle presents a symbol that decodes to `i`, the step is `exec`
of `i`, after the cycle's sample has been taken off the inputs and put on the ports with no event driven yet (how these
stand in State is the model's choice, logs 1 and 2). -/
def Obligations.StepRunsTheDecodedInstruction : Prop :=
  ∀ (s : State) (p : Ports) (rest : List Ports) (v : Symbol) (i : Instr),
    s.inputs = p :: rest → p.Presents v → s.lawful = true → decodeSymbol v = i →
    i.wellFormed = true ∧ step s = exec i { s with port := p, inputs := rest, evt := none }

/-- The completing step runs the packet's instruction (R124, R140, R141): `DATA.LAST` drives the event that `exec` of the
decoded packet-level instruction drives (that `exec` of it drives its event alone is the model's choice, log 16). -/
def Obligations.LastByteRunsTheDecodedPacket : Prop :=
  ∀ (s : State) (b : Byte) (payload : List Byte) (i : Instr),
    s.asm = .collecting → s.rem = 1 → s.len.toNat ≤ 16 → s.buf.readBelow s.len.toNat = .ok payload →
    decodePacket (dirOfSwcb s.swcb) payload = .ok i →
    i.wellFormed = true ∧ ∃ u t, exec i s = .next u ∧ exec (.dataLast b) s = .next t ∧ t.evt = u.evt ∧
      u.evt.isSome = true

/-- A table word's packet placed before its checksum runs as the next step (the model's choice of presenting, log 9): the step drives that packet-level
instruction's event and returns to `Idle`. -/
def Obligations.PresentedPacketRunsNext : Prop :=
  ∀ (s : State) (i : Instr) (body : EventBody), i.wellFormed = true → packetBody i = some body →
    ∃ t, step (s.present (encode i)) = .next t ∧ t.evt = some ⟨body, s.start, 0⟩ ∧ t.asm = .idle ∧
      t.inputs = s.inputs

/-- R260, R35: in a cycle with `rst = 1` the registers take their reset values, whatever the state and the symbol ports
are, and no event is driven. (What `BUF` and `START` hold then is unspecified and not stated.) -/
def Obligations.ResetCycleResets : Prop :=
  ∀ (s : State) (p : Ports) (rest : List Ports), s.inputs = p :: rest → p.rst = true →
    ∃ t, step s = .next t ∧ t.asm = .idle ∧ t.swcb = false ∧ t.rem = 0 ∧ t.len = 0 ∧ t.addr = 0 ∧ t.evt = none ∧
      t.inputs = rest

/-- R35: the reset values the spec gives. -/
def Obligations.ResetValues : Prop :=
  State.reset.asm = .idle ∧ State.reset.swcb = false ∧ State.reset.rem = 0 ∧ State.reset.len = 0 ∧
    State.reset.addr = 0

/-- R40: a cycle with `sym_valid = 0` and `rst = 0` changes nothing and emits nothing; R248 and log 1: nor does the step
after the last presented cycle. -/
def Obligations.CycleWithoutSymbolChangesNothing : Prop :=
  (∀ (s : State) (p : Ports) (rest : List Ports), s.inputs = p :: rest → p.rst = false → p.symValid = false →
    step s = .next { s with port := p, inputs := rest, evt := none }) ∧
  ∀ s : State, s.inputs = [] → step s = .next { s with evt := none }

/-- R101: an error-flagged input, any value and any timestamps, is skipped: no event, no state change. -/
def Obligations.FlaggedInputIsSkipped : Prop :=
  ∀ (s : State) (p : Ports) (rest : List Ports), s.inputs = p :: rest → p.rst = false → p.symValid = true →
    p.symErr = true → s.lawful = true → step s = .next { s with port := p, inputs := rest, evt := none }

/-- The model's choice (log 7, after R11 and U6): a symbol presented in a state outside the invariant of R29 is refused by
name. -/
def Obligations.SymbolOutsideTheInvariantIsRefused : Prop :=
  ∀ (s : State) (p : Ports) (rest : List Ports), s.inputs = p :: rest → p.rst = false → p.symValid = true →
    s.lawful = false → step s = .refused .outsideInvariant

/-! ### Call bytes -/

/-- R104: `CALL.RQACK` writes `ADDR` and emits `request_acknowledgment` over the symbol's time; all else is unchanged,
bit 7 and the toggle play no part. -/
def Obligations.CallRqackAcknowledges : Prop :=
  ∀ (bit7 : BitVec 1) (a : BitVec 5) (s : State),
    decodeSymbol (callSymbol bit7 0b00 a) = .callRqack bit7 a ∧
    exec (.callRqack bit7 a) s =
      .next { s with addr := a, evt := some ⟨.requestAcknowledgment a, s.port.symStart, s.port.symEnd⟩ }

/-- R103: `CALL.INQ` writes `ADDR` and, while `CFG_SHOW_INQUIRY` is 1, emits `normal_inquiry`; all else is unchanged. -/
def Obligations.CallInqReportsTheInquiry : Prop :=
  ∀ (bit7 : BitVec 1) (a : BitVec 5) (s : State),
    decodeSymbol (callSymbol bit7 0b10 a) = .callInq bit7 a ∧
    exec (.callInq bit7 a) s =
      .next { s with
        addr := a
        evt := if s.port.cfgShowInquiry = true then some ⟨.normalInquiry a, s.port.symStart, s.port.symEnd⟩
          else none }

/-- R105: `CALL.BA` opens a station-to-device packet from any state, a packet in progress included, and emits nothing.
(No byte of `BUF` has a defined value then, R36: what the model keeps there is `UnwrittenStateIsKept`.) -/
def Obligations.CallBaOpensAPacket : Prop :=
  ∀ (bit7 : BitVec 1) (a : BitVec 5) (s : State),
    decodeSymbol (callSymbol bit7 0b11 a) = .callBa bit7 a ∧
    ∃ t, exec (.callBa bit7 a) s = .next t ∧ t.addr = a ∧ t.asm = .awaitingHeader ∧ t.swcb = true ∧ t.rem = 0 ∧
      t.len = 0 ∧ t.start = s.port.symStart ∧ t.evt = none ∧ t.port = s.port ∧ t.inputs = s.inputs

/-- R106: the reserved category writes `ADDR` and emits a plain `callbyte`; all else is unchanged. -/
def Obligations.CallFbIsAPlainCallbyte : Prop :=
  ∀ (bit7 : BitVec 1) (a : BitVec 5) (s : State),
    decodeSymbol (callSymbol bit7 0b01 a) = .callFb bit7 a ∧
    exec (.callFb bit7 a) s =
      .next { s with addr := a, evt := some ⟨.callbyte, s.port.symStart, s.port.symEnd⟩ }

/-! ### Data bytes -/

/-- R120: a data byte in `Idle` is the bare header of a device-to-station packet. -/
def Obligations.DataInIdleIsABareHeader : Prop :=
  ∀ (b : Byte) (s : State), s.asm = .idle →
    ∃ t, exec (.dataHdr0 b) s = .next t ∧ exec (.data b) s = .next t ∧
      t.swcb = false ∧ t.start = s.port.symStart ∧ t.len = 1 ∧ t.rem.toNat = b.toNat % 16 + 1 ∧
      t.asm = .collecting ∧ t.evt = none ∧ t.addr = s.addr ∧ t.port = s.port ∧ t.inputs = s.inputs ∧
      t.buf.read 0 = .ok b

/-- R121: a data byte in `AwaitingHeader` is the header of the packet the call byte opened; `SWCB` and `START` are kept. -/
def Obligations.DataInAwaitingHeaderIsTheHeader : Prop :=
  ∀ (b : Byte) (s : State), s.asm = .awaitingHeader →
    ∃ t, exec (.dataHdr1 b) s = .next t ∧ exec (.data b) s = .next t ∧
      t.swcb = s.swcb ∧ t.start = s.start ∧ t.len = 1 ∧ t.rem.toNat = b.toNat % 16 + 1 ∧
      t.asm = .collecting ∧ t.evt = none ∧ t.addr = s.addr ∧ t.port = s.port ∧ t.inputs = s.inputs ∧
      t.buf.read 0 = .ok b

/-- R122: a data byte in `Collecting` with `REM > 1` is appended at index `LEN`, unexamined; the bytes below are kept. -/
def Obligations.DataInCollectingIsAppended : Prop :=
  ∀ (b : Byte) (s : State), s.asm = .collecting → 1 < s.rem.toNat → s.len.toNat ≤ 16 →
    ∃ t, exec (.dataBody b) s = .next t ∧ exec (.data b) s = .next t ∧
      t.len.toNat = s.len.toNat + 1 ∧ t.rem.toNat = s.rem.toNat - 1 ∧
      t.asm = .collecting ∧ t.swcb = s.swcb ∧ t.start = s.start ∧ t.evt = none ∧ t.addr = s.addr ∧
      t.port = s.port ∧ t.inputs = s.inputs ∧
      t.buf.read s.len.toNat = .ok b ∧ ∀ j, j < s.len.toNat → t.buf.read j = s.buf.read j

/-- R124: the byte that takes `REM` from 1 to 0 is stored as the checksum, the bytes gathered before it are dispatched in
the direction `SWCB` gives, exactly one event is emitted over `[START, in.t_end]`, and the assembler returns to `Idle`;
`BUF` still holds the packet's bytes. -/
def Obligations.LastByteCompletesThePacket : Prop :=
  ∀ (b : Byte) (s : State) (payload : List Byte), s.asm = .collecting → s.rem = 1 → s.len.toNat ≤ 16 →
    s.buf.readBelow s.len.toNat = .ok payload → framed payload = true →
    ∃ body t, dispatch (if s.swcb then .stationToDevice else .deviceToStation) payload = .ok body ∧
      exec (.dataLast b) s = .next t ∧ exec (.data b) s = .next t ∧
      t.evt = some ⟨body, s.start, s.port.symEnd⟩ ∧
      t.asm = .idle ∧ t.swcb = false ∧ t.rem = 0 ∧ t.len = 0 ∧
      t.addr = s.addr ∧ t.port = s.port ∧ t.inputs = s.inputs ∧
      t.buf.read s.len.toNat = .ok b ∧ ∀ j, j < s.len.toNat → t.buf.read j = s.buf.read j

/-- The model's choice where R36 leaves it open (log 6), after R22 and R50: what no rule writes is kept. `CALL.BA` leaves
every byte of `BUF`; a header byte every byte but index 0; a later byte every byte but index `LEN`, and `START`, in every
state in which the operation answers at all. -/
def Obligations.UnwrittenStateIsKept : Prop :=
  (∀ (bit7 : BitVec 1) (a : BitVec 5) (s : State), ∃ t, exec (.callBa bit7 a) s = .next t ∧ t.buf = s.buf) ∧
  ∀ (b : Byte) (s t : State),
    (exec (.dataHdr0 b) s = .next t ∨ exec (.dataHdr1 b) s = .next t →
      ∀ j, j ≠ 0 → t.buf.read j = s.buf.read j) ∧
    (exec (.dataBody b) s = .next t ∨ exec (.dataLast b) s = .next t →
      t.start = s.start ∧ ∀ j, j ≠ s.len.toNat → t.buf.read j = s.buf.read j)

/-- R108: every data byte is accepted in every safe state and goes to the one sub-operation that `ASM` and `REM` select;
`ADDR` is unchanged. -/
def Obligations.DataGoesToTheSelectedSubOperation : Prop :=
  ∀ (b : Byte) (s : State), s.Safe →
    ∃ t, exec (.data b) s = .next t ∧ t.addr = s.addr ∧
      (s.asm = .idle → exec (.dataHdr0 b) s = .next t) ∧
      (s.asm = .awaitingHeader → exec (.dataHdr1 b) s = .next t) ∧
      (s.asm = .collecting → 1 < s.rem.toNat → exec (.dataBody b) s = .next t) ∧
      (s.asm = .collecting → s.rem.toNat = 1 → exec (.dataLast b) s = .next t) ∧
      (s.asm = .collecting → 1 ≤ s.rem.toNat)

/-- The model's choice (log 8): a sub-operation of `DATA` in a state its row's `when` does not name is refused by name. -/
def Obligations.SubOperationElsewhereIsRefused : Prop :=
  ∀ (b : Byte) (s : State),
    (s.asm ≠ .idle → exec (.dataHdr0 b) s = .refused (.notSelected "DATA.HDR0")) ∧
    (s.asm ≠ .awaitingHeader → exec (.dataHdr1 b) s = .refused (.notSelected "DATA.HDR1")) ∧
    (¬(s.asm = .collecting ∧ 1 < s.rem.toNat) → exec (.dataBody b) s = .refused (.notSelected "DATA.BODY")) ∧
    (¬(s.asm = .collecting ∧ s.rem.toNat = 1) → exec (.dataLast b) s = .refused (.notSelected "DATA.LAST"))

/-! ### Packet-level operations: encoding, event, frame -/

/-- R145 to R149: each broadcast pair after a call byte decodes to its operation and emits its event over the packet's time
range, nothing else changing; the same bytes from a device are `unknown`, as is any other `[0x81, x]`. -/
def Obligations.BroadcastsEmitTheirEvents : Prop :=
  (∀ s : State,
    exec .bcResume s = .next { s with evt := some ⟨.normalOperationResumed, s.start, s.port.symEnd⟩ } ∧
    exec .bcPwroff s = .next { s with evt := some ⟨.trackPowerOff, s.start, s.port.symEnd⟩ } ∧
    exec .bcShort s = .next { s with evt := some ⟨.shortCircuit, s.start, s.port.symEnd⟩ } ∧
    exec .bcEstop s = .next { s with evt := some ⟨.emergencyStop, s.start, s.port.symEnd⟩ } ∧
    exec .bcSvcmode s = .next { s with evt := some ⟨.serviceModeEntry, s.start, s.port.symEnd⟩ }) ∧
  decodePacket .stationToDevice [0x61, 0x01] = .ok .bcResume ∧
  decodePacket .stationToDevice [0x61, 0x00] = .ok .bcPwroff ∧
  decodePacket .stationToDevice [0x61, 0x08] = .ok .bcShort ∧
  decodePacket .stationToDevice [0x81, 0x00] = .ok .bcEstop ∧
  decodePacket .stationToDevice [0x61, 0x02] = .ok .bcSvcmode ∧
  dispatchWord .stationToDevice [0x61, 0x01] = 0x16101 ∧ dispatchWord .stationToDevice [0x61, 0x00] = 0x16100 ∧
  dispatchWord .stationToDevice [0x61, 0x08] = 0x16108 ∧ dispatchWord .stationToDevice [0x81, 0x00] = 0x18100 ∧
  dispatchWord .stationToDevice [0x61, 0x02] = 0x16102 ∧
  (∀ h x : Byte, h = 0x61 ∨ h = 0x81 → dispatch .deviceToStation [h, x] = .ok .unknown) ∧
  ∀ x : Byte, x ≠ 0x00 → dispatch .stationToDevice [0x81, x] = .ok .unknown

/-- R150, R82: a completed packet whose dispatch word matches no row emits `unknown`, without fields, over the packet's
time range; nothing else changes. -/
def Obligations.UnknownPacketsAreReported : Prop :=
  ∀ (dir : Dir) (payload : List Byte), framed payload = true →
    (∀ r ∈ dwRows, r.fits (dispatchWord dir payload) = false) →
    decodePacket dir payload = .ok (.unknown dir payload) ∧ dispatch dir payload = .ok .unknown ∧
    ∀ s : State, exec (.unknown dir payload) s = .next { s with evt := some ⟨.unknown, s.start, s.port.symEnd⟩ }

/-- R151, R219, R166, R177, R179: the decoders keyed by a sub-opcode decline every sub-opcode that is none of their cases,
and the packet is then `unknown`. -/
def Obligations.DecodersDeclineOtherSubOpcodes : Prop :=
  ∀ (sub : Byte) (tail : List Byte),
    (tail.length = 0 → sub ∉ ([0x21, 0x24, 0x80, 0x81] : List Byte) →
      dispatch .deviceToStation (0x21 :: sub :: tail) = .ok .unknown) ∧
    (tail.length = 3 →
      sub ∉ ([0x10, 0x11, 0x12, 0x13, 0x20, 0x21, 0x22, 0x23, 0x24, 0x25, 0x26, 0x27, 0x2C] : List Byte) →
      dispatch .deviceToStation (0xE4 :: sub :: tail) = .ok .unknown) ∧
    (tail.length = 0 → sub ∉ ([0x00, 0x01, 0x02, 0x08, 0x80, 0x81, 0x82] : List Byte) →
      dispatch .stationToDevice (0x61 :: sub :: tail) = .ok .unknown) ∧
    (tail.length = 1 → sub ≠ 0x22 → dispatch .stationToDevice (0x62 :: sub :: tail) = .ok .unknown) ∧
    (tail.length = 2 → sub ≠ 0x21 → dispatch .stationToDevice (0x63 :: sub :: tail) = .ok .unknown) ∧
    (tail.length = 2 → sub ≠ 0x50 → sub ≠ 0x52 →
      dispatch .stationToDevice (0xE3 :: sub :: tail) = .ok .unknown) ∧
    (tail.length = 3 → sub ≠ 0x51 → dispatch .stationToDevice (0xE4 :: sub :: tail) = .ok .unknown)

/-- R162 to R165, with R160 and R161: the four speed operations report the 14-bit address, the step mode of the sub-opcode,
the direction bit and the speed; nothing else changes. -/
def Obligations.SpeedOperationsReportAddressAndSpeed : Prop :=
  ∀ (ah al rv : Byte) (s : State), ∃ (addr : BitVec 14) (dirn : Bool) (spd : Speed),
    addr.toNat = (if ah.toNat = 0 then al.toNat else ah.toNat % 64 * 256 + al.toNat) ∧
    dirn = decide (128 ≤ rv.toNat) ∧
    (rv.toNat % 128 = 0 → spd = .step 0) ∧ (rv.toNat % 128 = 1 → spd = .emergencyStop) ∧
    (2 ≤ rv.toNat % 128 → ∃ n, spd = .step n ∧ n.toNat = rv.toNat % 128 - 1) ∧
    decodePacket .deviceToStation [0xE4, 0x10, ah, al, rv] = .ok (.locoSpd14 ah al rv) ∧
    decodePacket .deviceToStation [0xE4, 0x11, ah, al, rv] = .ok (.locoSpd27 ah al rv) ∧
    decodePacket .deviceToStation [0xE4, 0x12, ah, al, rv] = .ok (.locoSpd28 ah al rv) ∧
    decodePacket .deviceToStation [0xE4, 0x13, ah, al, rv] = .ok (.locoSpd128 ah al rv) ∧
    dispatchWord .deviceToStation [0xE4, 0x10, ah, al, rv] = 0x0E410 ∧
    dispatchWord .deviceToStation [0xE4, 0x11, ah, al, rv] = 0x0E411 ∧
    dispatchWord .deviceToStation [0xE4, 0x12, ah, al, rv] = 0x0E412 ∧
    dispatchWord .deviceToStation [0xE4, 0x13, ah, al, rv] = 0x0E413 ∧
    exec (.locoSpd14 ah al rv) s = .next { s with
      evt := some ⟨.locomotiveSpeedAndDirectionOperation addr .s14 dirn spd, s.start, s.port.symEnd⟩ } ∧
    exec (.locoSpd27 ah al rv) s = .next { s with
      evt := some ⟨.locomotiveSpeedAndDirectionOperation addr .s27 dirn spd, s.start, s.port.symEnd⟩ } ∧
    exec (.locoSpd28 ah al rv) s = .next { s with
      evt := some ⟨.locomotiveSpeedAndDirectionOperation addr .s28 dirn spd, s.start, s.port.symEnd⟩ } ∧
    exec (.locoSpd128 ah al rv) s = .next { s with
      evt := some ⟨.locomotiveSpeedAndDirectionOperation addr .s128 dirn spd, s.start, s.port.symEnd⟩ }

/-- R160's inference: the two branches of the address rule agree, so `loco_addr(AH, AL) = {AH[5:0], AL}` for every input. -/
def Obligations.LocoAddressBranchesAgree : Prop :=
  ∀ ah al : Byte, locoAddr ah al = ah.extractLsb' 0 6 ++ al

/-- R167: the five layouts and the second byte of R177, bit by bit: which function each data bit stands for; a set of two
bytes is the bitwise or of two layouts. -/
def Obligations.FunctionLayoutsAreBitForBit : Prop :=
  (∀ x y : FnSet, (x.or y).mask = x.mask ||| y.mask ∧ (x.or y).bits = x.bits ||| y.bits) ∧
  ∀ (d : Byte) (k : Nat),
    (fnG1 d).mask = 0x0000001F ∧ (fnG2 d).mask = 0x000001E0 ∧ (fnG3 d).mask = 0x00001E00 ∧
    (fnG4 d).mask = 0x001FE000 ∧ (fnG5 d).mask = 0x1FE00000 ∧ (fnF5to12 d).mask = 0x00001FE0 ∧
    (fnG1 d).bits.getLsbD k = (if k = 0 then d.getLsbD 4 else if k ≤ 4 then d.getLsbD (k - 1) else false) ∧
    (fnG2 d).bits.getLsbD k = (if 5 ≤ k ∧ k ≤ 8 then d.getLsbD (k - 5) else false) ∧
    (fnG3 d).bits.getLsbD k = (if 9 ≤ k ∧ k ≤ 12 then d.getLsbD (k - 9) else false) ∧
    (fnG4 d).bits.getLsbD k = (if 13 ≤ k ∧ k ≤ 20 then d.getLsbD (k - 13) else false) ∧
    (fnG5 d).bits.getLsbD k = (if 21 ≤ k ∧ k ≤ 28 then d.getLsbD (k - 21) else false) ∧
    (fnF5to12 d).bits.getLsbD k = (if 5 ≤ k ∧ k ≤ 12 then d.getLsbD (k - 5) else false)

/-- R168 to R171: the function operations report the address and the group's set, nothing else changing. -/
def Obligations.FunctionOperationsReportTheirGroup : Prop :=
  ∀ (ah al d : Byte) (s : State),
    decodePacket .deviceToStation [0xE4, 0x20, ah, al, d] = .ok (.locoFnG1 ah al d) ∧
    decodePacket .deviceToStation [0xE4, 0x21, ah, al, d] = .ok (.locoFnG2 ah al d) ∧
    decodePacket .deviceToStation [0xE4, 0x22, ah, al, d] = .ok (.locoFnG3 ah al d) ∧
    decodePacket .deviceToStation [0xE4, 0x23, ah, al, d] = .ok (.locoFnG4 ah al d) ∧
    dispatchWord .deviceToStation [0xE4, 0x20, ah, al, d] = 0x0E420 ∧
    dispatchWord .deviceToStation [0xE4, 0x21, ah, al, d] = 0x0E421 ∧
    dispatchWord .deviceToStation [0xE4, 0x22, ah, al, d] = 0x0E422 ∧
    dispatchWord .deviceToStation [0xE4, 0x23, ah, al, d] = 0x0E423 ∧
    exec (.locoFnG1 ah al d) s = .next { s with
      evt := some ⟨.functionOperationInstructions (locoAddr ah al) (fnG1 d), s.start, s.port.symEnd⟩ } ∧
    exec (.locoFnG2 ah al d) s = .next { s with
      evt := some ⟨.functionOperationInstructions (locoAddr ah al) (fnG2 d), s.start, s.port.symEnd⟩ } ∧
    exec (.locoFnG3 ah al d) s = .next { s with
      evt := some ⟨.functionOperationInstructions (locoAddr ah al) (fnG3 d), s.start, s.port.symEnd⟩ } ∧
    exec (.locoFnG4 ah al d) s = .next { s with
      evt := some ⟨.functionOperationInstructions (locoAddr ah al) (fnG4 d), s.start, s.port.symEnd⟩ }

/-- R172 to R176: the function state operations report the address and the group's set, nothing else changing. -/
def Obligations.FunctionStatesReportTheirGroup : Prop :=
  ∀ (ah al d : Byte) (s : State),
    decodePacket .deviceToStation [0xE4, 0x24, ah, al, d] = .ok (.locoFnstG1 ah al d) ∧
    decodePacket .deviceToStation [0xE4, 0x25, ah, al, d] = .ok (.locoFnstG2 ah al d) ∧
    decodePacket .deviceToStation [0xE4, 0x26, ah, al, d] = .ok (.locoFnstG3 ah al d) ∧
    decodePacket .deviceToStation [0xE4, 0x27, ah, al, d] = .ok (.locoFnstG4 ah al d) ∧
    decodePacket .deviceToStation [0xE4, 0x2C, ah, al, d] = .ok (.locoFnstG5 ah al d) ∧
    dispatchWord .deviceToStation [0xE4, 0x24, ah, al, d] = 0x0E424 ∧
    dispatchWord .deviceToStation [0xE4, 0x25, ah, al, d] = 0x0E425 ∧
    dispatchWord .deviceToStation [0xE4, 0x26, ah, al, d] = 0x0E426 ∧
    dispatchWord .deviceToStation [0xE4, 0x27, ah, al, d] = 0x0E427 ∧
    dispatchWord .deviceToStation [0xE4, 0x2C, ah, al, d] = 0x0E42C ∧
    exec (.locoFnstG1 ah al d) s = .next { s with
      evt := some ⟨.setFunctionState (locoAddr ah al) (fnG1 d), s.start, s.port.symEnd⟩ } ∧
    exec (.locoFnstG2 ah al d) s = .next { s with
      evt := some ⟨.setFunctionState (locoAddr ah al) (fnG2 d), s.start, s.port.symEnd⟩ } ∧
    exec (.locoFnstG3 ah al d) s = .next { s with
      evt := some ⟨.setFunctionState (locoAddr ah al) (fnG3 d), s.start, s.port.symEnd⟩ } ∧
    exec (.locoFnstG4 ah al d) s = .next { s with
      evt := some ⟨.setFunctionState (locoAddr ah al) (fnG4 d), s.start, s.port.symEnd⟩ } ∧
    exec (.locoFnstG5 ah al d) s = .next { s with
      evt := some ⟨.setFunctionState (locoAddr ah al) (fnG5 d), s.start, s.port.symEnd⟩ }

/-- R177 to R179: the station-side function packets report F0 to F12 or F13 to F28, bit by bit, without an address;
`payload[4]` of `LOCO.FNSTATHI` plays no part; nothing else changes. -/
def Obligations.StationFunctionStatusIsBitForBit : Prop :=
  ∀ (x y z : Byte) (s : State), ∃ lo hi : FnSet,
    lo.mask = 0x00001FFF ∧ hi.mask = 0x1FFFE000 ∧
    (∀ k, lo.bits.getLsbD k = (if k = 0 then x.getLsbD 4 else if k ≤ 4 then x.getLsbD (k - 1)
      else if k ≤ 12 then y.getLsbD (k - 5) else false)) ∧
    (∀ k, hi.bits.getLsbD k = (if k ≤ 12 then false else if k ≤ 20 then x.getLsbD (k - 13)
      else if k ≤ 28 then y.getLsbD (k - 21) else false)) ∧
    decodePacket .stationToDevice [0xE3, 0x50, x, y] = .ok (.locoFnstat x y) ∧
    decodePacket .stationToDevice [0xE3, 0x52, x, y] = .ok (.locoFnhi x y) ∧
    decodePacket .stationToDevice [0xE4, 0x51, x, y, z] = .ok (.locoFnstathi x y z) ∧
    dispatchWord .stationToDevice [0xE3, 0x50, x, y] = 0x1E350 ∧
    dispatchWord .stationToDevice [0xE3, 0x52, x, y] = 0x1E352 ∧
    dispatchWord .stationToDevice [0xE4, 0x51, x, y, z] = 0x1E451 ∧
    exec (.locoFnstat x y) s = .next { s with evt := some ⟨.functionStatusResponse lo, s.start, s.port.symEnd⟩ } ∧
    exec (.locoFnhi x y) s = .next { s with evt := some ⟨.functionStateHighResponse hi, s.start, s.port.symEnd⟩ } ∧
    exec (.locoFnstathi x y z) s =
      .next { s with evt := some ⟨.functionStatusHighResponse hi, s.start, s.port.symEnd⟩ }

/-- R87, R167: in every event with a function set, `bits & ~mask = 0`. -/
def Obligations.FunctionBitsStayUnderTheMask : Prop :=
  ∀ (i : Instr) (body : EventBody) (f : FnSet), packetBody i = some body → body.functions? = some f →
    f.bits &&& ~~~f.mask = 0

/-- R192, R193, with R191: the information packets report the address pair `(4A + 2n, 4A + 2n + 1)` and, in the response,
type, the two turnout states and the incomplete bit; nothing else changes. -/
def Obligations.AccessoryInformationReportsThePair : Prop :=
  ∀ (a b : Byte) (s : State), ∃ (q r : AddressPair) (type st0 st1 : BitVec 2),
    q.first.toNat = 4 * a.toNat + 2 * (b.toNat % 2) ∧ q.second.toNat = 4 * a.toNat + 2 * (b.toNat % 2) + 1 ∧
    r.first.toNat = 4 * a.toNat + 2 * (b.toNat / 16 % 2) ∧
    r.second.toNat = 4 * a.toNat + 2 * (b.toNat / 16 % 2) + 1 ∧
    type.toNat = b.toNat / 32 % 4 ∧ st0.toNat = b.toNat % 4 ∧ st1.toNat = b.toNat / 4 % 4 ∧
    decodePacket .deviceToStation [0x42, a, b] = .ok (.accInforeq a b) ∧
    decodePacket .stationToDevice [0x42, a, b] = .ok (.accInforesp a b) ∧
    dispatchWord .deviceToStation [0x42, a, b] &&& 0x1FF00 = 0x04200 ∧
    dispatchWord .stationToDevice [0x42, a, b] &&& 0x1FF00 = 0x14200 ∧
    exec (.accInforeq a b) s =
      .next { s with evt := some ⟨.accessoryDecoderInformationRequest q, s.start, s.port.symEnd⟩ } ∧
    exec (.accInforesp a b) s = .next { s with
      evt := some ⟨.accessoryDecoderInformationResponse type r ⟨st0, st1, decide (128 ≤ b.toNat)⟩, s.start,
        s.port.symEnd⟩ }

/-- R195: the operation request reports the address `4A + B[2:1]`, output "2" iff `B[0] = 1`, "Activate" iff `B[3] = 1`;
nothing else changes. -/
def Obligations.AccessoryOperationRequestIsDecoded : Prop :=
  ∀ (a b : Byte) (s : State), ∃ addr : BitVec 10, addr.toNat = 4 * a.toNat + b.toNat / 2 % 4 ∧
    decodePacket .deviceToStation [0x52, a, b] = .ok (.accOpreq a b) ∧
    dispatchWord .deviceToStation [0x52, a, b] &&& 0x1FF00 = 0x05200 ∧
    exec (.accOpreq a b) s = .next { s with
      evt := some ⟨.accessoryDecoderOperationRequest addr (if b.toNat % 2 = 1 then .two else .one)
        (if b.toNat / 8 % 2 = 1 then .activate else .deactivate), s.start, s.port.symEnd⟩ }

/-- R210 to R214: the acknowledgment and the four generic requests; the acknowledgment's station-to-device form is
`unknown`, and so is a request with any other sub-opcode; nothing else changes. -/
def Obligations.RequestsAreReported : Prop :=
  (∀ s : State,
    exec .ackResp s = .next { s with evt := some ⟨.acknowledgmentResponse, s.start, s.port.symEnd⟩ } ∧
    exec .reqVersion s =
      .next { s with evt := some ⟨.genericRequest .softwareVersionRequest, s.start, s.port.symEnd⟩ } ∧
    exec .reqStatus s = .next { s with evt := some ⟨.genericRequest .statusRequest, s.start, s.port.symEnd⟩ } ∧
    exec .reqStop s =
      .next { s with evt := some ⟨.genericRequest .stopOperationsRequest, s.start, s.port.symEnd⟩ } ∧
    exec .reqResume s =
      .next { s with evt := some ⟨.genericRequest .resumeOperationsRequest, s.start, s.port.symEnd⟩ }) ∧
  decodePacket .deviceToStation [0x20] = .ok .ackResp ∧
  decodePacket .deviceToStation [0x21, 0x21] = .ok .reqVersion ∧
  decodePacket .deviceToStation [0x21, 0x24] = .ok .reqStatus ∧
  decodePacket .deviceToStation [0x21, 0x80] = .ok .reqStop ∧
  decodePacket .deviceToStation [0x21, 0x81] = .ok .reqResume ∧
  dispatchWord .deviceToStation [0x20] = 0x02000 ∧ dispatchWord .deviceToStation [0x21, 0x21] = 0x02121 ∧
  dispatchWord .deviceToStation [0x21, 0x24] = 0x02124 ∧ dispatchWord .deviceToStation [0x21, 0x80] = 0x02180 ∧
  dispatchWord .deviceToStation [0x21, 0x81] = 0x02181 ∧ dispatch .stationToDevice [0x20] = .ok .unknown ∧
  ∀ x : Byte, x ∉ ([0x21, 0x24, 0x80, 0x81] : List Byte) → dispatch .deviceToStation [0x21, x] = .ok .unknown

/-- R215 to R217: the errors the station reports are events, not faults; nothing else changes. -/
def Obligations.StationErrorsAreEvents : Prop :=
  (∀ s : State,
    exec .errTransfer s = .next { s with evt := some ⟨.transferError, s.start, s.port.symEnd⟩ } ∧
    exec .errBusy s = .next { s with evt := some ⟨.commandStationBusy, s.start, s.port.symEnd⟩ } ∧
    exec .errNotsupp s = .next { s with evt := some ⟨.instructionNotSupported, s.start, s.port.symEnd⟩ }) ∧
  decodePacket .stationToDevice [0x61, 0x80] = .ok .errTransfer ∧
  decodePacket .stationToDevice [0x61, 0x81] = .ok .errBusy ∧
  decodePacket .stationToDevice [0x61, 0x82] = .ok .errNotsupp ∧
  dispatchWord .stationToDevice [0x61, 0x80] = 0x16180 ∧ dispatchWord .stationToDevice [0x61, 0x81] = 0x16181 ∧
  dispatchWord .stationToDevice [0x61, 0x82] = 0x16182 ∧
  ∀ x : Byte, x ∉ ([0x00, 0x01, 0x02, 0x08, 0x80, 0x81, 0x82] : List Byte) →
    dispatch .stationToDevice [0x61, x] = .ok .unknown

/-- R218: the station status reports six flags, each from its own bit, and reads no other bit; nothing else changes. -/
def Obligations.StationStatusReportsTheFlags : Prop :=
  ∀ (st : Byte) (s : State),
    decodePacket .stationToDevice [0x62, 0x22, st] = .ok (.staStatus st) ∧
    dispatchWord .stationToDevice [0x62, 0x22, st] = 0x16222 ∧
    exec (.staStatus st) s = .next { s with evt := some ⟨.status
      { ramCheckError := decide (st.toNat / 128 % 2 = 1)
        powerUp := decide (st.toNat / 64 % 2 = 1)
        serviceMode := decide (st.toNat / 8 % 2 = 1)
        startMode := if st.toNat / 4 % 2 = 1 then .automatic else .manual
        emergencyStop := decide (st.toNat / 2 % 2 = 1)
        emergencyOff := decide (st.toNat % 2 = 1) }, s.start, s.port.symEnd⟩ }

/-- R220: the software version reports major and minor nibble and the station id, uninterpreted; nothing else changes. -/
def Obligations.SoftwareVersionReportsTheNibbles : Prop :=
  ∀ (v stationId : Byte) (s : State), ∃ major minor : BitVec 4,
    major.toNat = v.toNat / 16 ∧ minor.toNat = v.toNat % 16 ∧
    decodePacket .stationToDevice [0x63, 0x21, v, stationId] = .ok (.staVersion v stationId) ∧
    dispatchWord .stationToDevice [0x63, 0x21, v, stationId] = 0x16321 ∧
    exec (.staVersion v stationId) s =
      .next { s with evt := some ⟨.softwareVersion ⟨major, minor⟩ stationId, s.start, s.port.symEnd⟩ }

/-- R83: the bits no rule reads affect no event: meanings agree on operands that differ in those bits alone. -/
def Obligations.UnreadBitsAffectNoEvent : Prop :=
  ∀ (x x' ah ah' al d d' : Byte) (p p' : BitVec 1) (a : BitVec 5) (s : State),
    exec (.callRqack p a) s = exec (.callRqack p' a) s ∧ exec (.callFb p a) s = exec (.callFb p' a) s ∧
    exec (.callInq p a) s = exec (.callInq p' a) s ∧ exec (.callBa p a) s = exec (.callBa p' a) s ∧
    (∀ t t', exec (.dataLast x) s = .next t → exec (.dataLast x') s = .next t' → t.evt = t'.evt) ∧
    (ah &&& 0x3F = ah' &&& 0x3F →
      exec (.locoSpd14 ah al d) s = exec (.locoSpd14 ah' al d) s ∧
      exec (.locoSpd27 ah al d) s = exec (.locoSpd27 ah' al d) s ∧
      exec (.locoSpd28 ah al d) s = exec (.locoSpd28 ah' al d) s ∧
      exec (.locoSpd128 ah al d) s = exec (.locoSpd128 ah' al d) s ∧
      exec (.locoFnG4 ah al d) s = exec (.locoFnG4 ah' al d) s ∧
      exec (.locoFnstG4 ah al d) s = exec (.locoFnstG4 ah' al d) s ∧
      exec (.locoFnstG5 ah al d) s = exec (.locoFnstG5 ah' al d) s ∧
      (d &&& 0x1F = d' &&& 0x1F →
        exec (.locoFnG1 ah al d) s = exec (.locoFnG1 ah' al d') s ∧
        exec (.locoFnstG1 ah al d) s = exec (.locoFnstG1 ah' al d') s) ∧
      (d &&& 0x0F = d' &&& 0x0F →
        exec (.locoFnG2 ah al d) s = exec (.locoFnG2 ah' al d') s ∧
        exec (.locoFnstG2 ah al d) s = exec (.locoFnstG2 ah' al d') s ∧
        exec (.locoFnG3 ah al d) s = exec (.locoFnG3 ah' al d') s ∧
        exec (.locoFnstG3 ah al d) s = exec (.locoFnstG3 ah' al d') s)) ∧
    (d &&& 0x1F = d' &&& 0x1F → exec (.locoFnstat d x) s = exec (.locoFnstat d' x) s) ∧
    (d &&& 0x01 = d' &&& 0x01 → exec (.accInforeq x d) s = exec (.accInforeq x d') s) ∧
    (d &&& 0x0F = d' &&& 0x0F → exec (.accOpreq x d) s = exec (.accOpreq x d') s) ∧
    (d &&& 0xCF = d' &&& 0xCF → exec (.staStatus d) s = exec (.staStatus d') s) ∧
    exec (.locoFnstathi al d x) s = exec (.locoFnstathi al d x') s

/-! ### Invariants -/

/-- The state after reset is safe. -/
def Obligations.ResetIsSafe : Prop := State.reset.Safe

/-- R29: every step from a safe state that answers a next state answers a safe one. -/
def Obligations.StepKeepsSafe : Prop :=
  ∀ s t : State, s.Safe → step s = .next t → t.Safe

/-- R230, R11: the block never stops: from every safe state, on every input, the step answers a next state. -/
def Obligations.SafeStateNeverStops : Prop :=
  ∀ s : State, s.Safe → ∃ t, step s = .next t

/-- R29: in every state reachable from reset by any cycles the clauses (a) to (d) hold. -/
def Obligations.ReachableStatesMeetTheInvariant : Prop :=
  ∀ (inputs : List Ports) (n : Nat), ∃ t : State, core.run n { State.reset with inputs := inputs } = .next t ∧
    (t.asm = .idle → t.swcb = false ∧ t.rem = 0 ∧ t.len = 0) ∧
    (t.asm = .awaitingHeader → t.swcb = true ∧ t.rem = 0 ∧ t.len = 0) ∧
    (t.asm = .collecting → 1 ≤ t.rem.toNat ∧ t.rem.toNat ≤ 16 ∧ 1 ≤ t.len.toNat ∧ t.len.toNat ≤ 16 ∧
      ∃ h, t.buf.read 0 = .ok h ∧ t.len.toNat + t.rem.toNat = h.toNat % 16 + 2) ∧
    (t.swcb = true → t.asm ≠ .idle)

/-! ### The whole machine -/

/-- R102: `ADDR` takes `low[4:0]` of every call byte of the four categories and is unchanged by every other cycle but a
reset; a symbol classifies as a call byte iff its value is at least 256. -/
def Obligations.AddrIsTheLastCallBytesAddress : Prop :=
  (∀ v : Symbol, (256 ≤ v.toNat ↔ ∃ c b, classify v = .callByte c b (v.extractLsb' 0 5)) ∧
    (v.toNat < 256 ↔ classify v = .dataByte (v.extractLsb' 0 8))) ∧
  ∀ (s t : State) (p : Ports) (rest : List Ports), s.inputs = p :: rest → p.rst = false → step s = .next t →
    t.addr = if p.symValid = true ∧ p.symErr = false ∧ 256 ≤ p.symValue.toNat then p.symValue.extractLsb' 0 5
      else s.addr

/-- R107: a data symbol never emits `callbyte`, `normal_inquiry` or `request_acknowledgment`; those come from the three
call-byte operations alone; a call byte emits no packet-level kind and never writes `BUF`. (That `BUF` is unchanged also
from `LEN` up, which after `CALL.BA` is every byte, is the model's choice, log 6.) -/
def Obligations.CallKindsComeFromCallBytes : Prop :=
  ∀ (s t : State) (p : Ports) (rest : List Ports), s.inputs = p :: rest → step s = .next t →
    (p.symValue.toNat < 256 → ∀ e, t.evt = some e → e.body.isCallKind = false) ∧
    (256 ≤ p.symValue.toNat → (∀ e, t.evt = some e → e.body.isCallKind = true) ∧ (p.rst = false → t.buf = s.buf)) ∧
    ∀ e, t.evt = some e → e.body.isCallKind = true → ∃ b a,
      decodeSymbol p.symValue = .callInq b a ∨ decodeSymbol p.symValue = .callRqack b a ∨
      decodeSymbol p.symValue = .callFb b a

/-- R50, R51: `BUF` changes only in a step that takes a data byte, at index `LEN` of the state before it, to that byte;
every other byte reads as before (from `LEN` up the model's choice, log 6). -/
def Obligations.BufIsWrittenAtLenAlone : Prop :=
  ∀ (s t : State) (p : Ports) (rest : List Ports), s.Safe → s.inputs = p :: rest → p.rst = false →
    step s = .next t →
    (p.PresentsData → t.buf.read s.len.toNat = .ok (p.symValue.extractLsb' 0 8) ∧
      ∀ j, j ≠ s.len.toNat → t.buf.read j = s.buf.read j) ∧
    (¬ p.PresentsData → t.buf = s.buf)

/-- R30: the toggle withholds the event only: two cycles that differ in `CFG_SHOW_INQUIRY` alone leave the same registers,
and the same event unless the symbol is an inquiry. (That `START` in `Idle` and the bytes of `BUF` from `LEN` up agree too
is the model's choice, log 6.) -/
def Obligations.ToggleWithholdsTheEventOnly : Prop :=
  ∀ (s t t' : State) (p : Ports) (rest : List Ports) (x : Bool),
    step { s with inputs := p :: rest } = .next t →
    step { s with inputs := { p with cfgShowInquiry := x } :: rest } = .next t' →
    t'.addr = t.addr ∧ t'.asm = t.asm ∧ t'.swcb = t.swcb ∧ t'.rem = t.rem ∧ t'.len = t.len ∧ t'.buf = t.buf ∧
      t'.start = t.start ∧ t'.inputs = t.inputs ∧
      ((∀ b a, decodeSymbol p.symValue ≠ .callInq b a) → t'.evt = t.evt)

/-- R63, R124: the checksum byte is stored and never read: any value in its place gives the same event and registers, and
the same buffer but for the one byte. (That `START`, in `Idle` now, and the bytes of `BUF` above the checksum agree too is
the model's choice, log 6.) -/
def Obligations.ChecksumIsNeverRead : Prop :=
  ∀ (s t : State) (b b' : Byte), exec (.dataLast b) s = .next t →
    ∃ t', exec (.dataLast b') s = .next t' ∧ { t' with buf := t.buf } = t ∧
      t.buf.read s.len.toNat = .ok b ∧ t'.buf.read s.len.toNat = .ok b' ∧
      ∀ j, j ≠ s.len.toNat → t'.buf.read j = t.buf.read j

/-- R36, R261: what is unspecified has no effect on any event: two safe states that differ at most in `BUF` from `LEN` up, in
`START` while idle, in `ADDR` and in the last cycle's ports take steps with the same event to states that again differ
in no more. -/
def Obligations.UnspecifiedStateNeverShows : Prop :=
  ∀ s s' : State, s.Safe → s'.Safe → s.Agrees s' →
    ∃ t t', step s = .next t ∧ step s' = .next t' ∧ t.evt = t'.evt ∧ t.Agrees t'

/-- R74, R120 to R127: in `Idle`, a header, the `N` data bytes it declares and a checksum take `N + 2` steps, emit nothing
before the last, and then the one event of the device-to-station packet, from the header's start to the checksum's end;
`ADDR` is unchanged and the block is idle again. -/
def Obligations.DevicePacketIsReassembled : Prop :=
  ∀ (s : State) (ph px : Ports) (body rest : List Ports), s.Safe → s.asm = .idle →
    s.inputs = ph :: (body ++ px :: rest) → ph.PresentsData → px.PresentsData → (∀ p ∈ body, p.PresentsData) →
    body.length = headerCount (lowByte ph.symValue) →
    (∀ k, 0 < k → k < body.length + 2 → ∃ u : State, core.run k s = .next u ∧ u.evt = none) ∧
    ∃ (t : State) (e : EventBody), core.run (body.length + 2) s = .next t ∧
      dispatch .deviceToStation (lowByte ph.symValue :: body.map fun p => lowByte p.symValue) = .ok e ∧
      t.evt = some ⟨e, ph.symStart, px.symEnd⟩ ∧ t.asm = .idle ∧ t.inputs = rest ∧ t.addr = s.addr

/-- R74, R105, R121 to R127: from any safe state, a packet in progress or not, a `CALL.BA`, a header, the `N` data bytes it
declares and a checksum take `N + 3` steps, emit nothing before the last (a packet they cut short leaves no trace), and
then the one event of the station-to-device packet, from the call byte's start to the checksum's end. -/
def Obligations.StationPacketIsReassembled : Prop :=
  ∀ (s : State) (pc ph px : Ports) (body rest : List Ports) (b : BitVec 1) (a : BitVec 5), s.Safe →
    s.inputs = pc :: ph :: (body ++ px :: rest) → pc.Presents (callSymbol b 0b11 a) → ph.PresentsData →
    px.PresentsData → (∀ p ∈ body, p.PresentsData) → body.length = headerCount (lowByte ph.symValue) →
    (∀ k, 0 < k → k < body.length + 3 → ∃ u : State, core.run k s = .next u ∧ u.evt = none) ∧
    ∃ (t : State) (e : EventBody), core.run (body.length + 3) s = .next t ∧
      dispatch .stationToDevice (lowByte ph.symValue :: body.map fun p => lowByte p.symValue) = .ok e ∧
      t.evt = some ⟨e, pc.symStart, px.symEnd⟩ ∧ t.asm = .idle ∧ t.inputs = rest ∧ t.addr = a
end

