-- ==== Sys2Proof/Laws/Memory.lean ====
section
/-! SUPPORT. The laws of the payload buffer: read after write, and the canonical form every operation keeps. -/

namespace Sys2Proof.Machine

/-! ### One byte -/

@[simp] theorem Memory.byteAt_put_same (m : Memory) (i : Nat) (v : Byte) : (m.put i v).byteAt i = some v := by
  induction m with
  | nil => simp [Memory.put, Memory.byteAt]
  | cons c m ih =>
    obtain ⟨a, b⟩ := c
    unfold Memory.put
    split
    · simp [Memory.byteAt]
    · split
      · simp [Memory.byteAt]
      · simp [Memory.byteAt, *]

theorem Memory.byteAt_put_other (m : Memory) {i j : Nat} (v : Byte) (h : j ≠ i) :
    (m.put i v).byteAt j = m.byteAt j := by
  induction m with
  | nil => simp [Memory.put, Memory.byteAt, Ne.symm h]
  | cons c m ih =>
    obtain ⟨a, b⟩ := c
    unfold Memory.put
    split
    · simp [Memory.byteAt, Ne.symm h]
    · split
      · subst_vars; simp [Memory.byteAt, Ne.symm h]
      · simp [Memory.byteAt, ih]

/-- What a write can do: inside `BUF` it puts the byte, outside it faults. -/
theorem Memory.write_eq (m : Memory) (i : Nat) (v : Byte) :
    m.write i v = if i < 17 then .ok (m.put i v) else .error (.bufIndex i) := rfl

/-- A write that succeeds was inside `BUF` and put the byte there. -/
theorem Memory.write_ok {m m' : Memory} {i : Nat} {v : Byte} (h : m.write i v = .ok m') :
    i < 17 ∧ m' = m.put i v := by
  rw [Memory.write_eq] at h
  split at h
  · exact ⟨‹_›, by simpa using h.symm⟩
  · cases h

theorem Memory.read_of_byteAt {m : Memory} {i : Nat} {b : Byte} (hi : i < 17) (h : m.byteAt i = some b) :
    m.read i = .ok b := by
  simp [Memory.read, Config.bufDepth, hi, h]

/-- A read that succeeds is of a listed byte inside `BUF`. -/
theorem Memory.read_ok {m : Memory} {i : Nat} {b : Byte} (h : m.read i = .ok b) : i < 17 ∧ m.byteAt i = some b := by
  unfold Memory.read at h
  split at h
  · refine ⟨‹_›, ?_⟩
    split at h <;> simp_all
  · cases h

theorem Memory.read_put_same (m : Memory) {i : Nat} (v : Byte) (hi : i < 17) : (m.put i v).read i = .ok v :=
  Memory.read_of_byteAt hi (by simp)

theorem Memory.read_put_other (m : Memory) {i j : Nat} (v : Byte) (h : j ≠ i) : (m.put i v).read j = m.read j := by
  simp [Memory.read, Memory.byteAt_put_other m v h]

/-! ### The canonical form -/

theorem Memory.all_put {p : Host.Cell → Bool} {m : Memory} {i : Nat} {v : Byte} (hm : m.all p = true)
    (hi : p (i, v) = true) : (m.put i v).all p = true := by
  induction m with
  | nil => simp [Memory.put, hi]
  | cons c m ih =>
    obtain ⟨a, b⟩ := c
    simp only [List.all_cons, Bool.and_eq_true] at hm
    unfold Memory.put
    split
    · simp [hm.1, hi, hm.2]
    · split
      · simp [hi, hm.2]
      · simp [hm.1, ih hm.2]

theorem Memory.rising_put {m : Memory} {i : Nat} {v : Byte} (h : m.rising = true) : (m.put i v).rising = true := by
  induction m with
  | nil => simp [Memory.put, Memory.rising]
  | cons c m ih =>
    obtain ⟨a, b⟩ := c
    simp only [Memory.rising, Bool.and_eq_true] at h
    unfold Memory.put
    split
    · rename_i hlt
      simp only [Memory.rising, List.all_cons, Bool.and_eq_true, decide_eq_true_eq]
      refine ⟨⟨hlt, ?_⟩, h.1, h.2⟩
      rw [List.all_eq_true] at h ⊢
      intro x hx
      have := h.1 x hx
      simp only [decide_eq_true_eq] at this ⊢
      omega
    · split
      · subst_vars
        simp only [Memory.rising, Bool.and_eq_true]
        exact h
      · rename_i h1 h2
        simp only [Memory.rising, Bool.and_eq_true]
        exact ⟨Memory.all_put h.1 (by simp; omega), ih h.2⟩

/-- Every write keeps the canonical form. -/
theorem Memory.write_wf {m m' : Memory} {i : Nat} {v : Byte} (hm : m.wf = true) (h : m.write i v = .ok m') :
    m'.wf = true := by
  obtain ⟨hi, rfl⟩ := Memory.write_ok h
  simp only [Memory.wf, Bool.and_eq_true] at hm ⊢
  exact ⟨Memory.rising_put hm.1, Memory.all_put hm.2 (decide_eq_true hi)⟩

theorem Memory.put_wf {m : Memory} {i : Nat} {v : Byte} (hm : m.wf = true) (hi : i < 17) : (m.put i v).wf = true :=
  Memory.write_wf (i := i) (v := v) hm (by simp [Memory.write_eq, hi])

/-- Reset's buffer has the canonical form. -/
theorem State.reset_buf_wf : State.reset.buf.wf = true := rfl

/-! ### The bytes of a packet -/

/-- The bytes read below an index are as many as the index, and each is the byte there. -/
theorem Memory.readBelow_ok {m : Memory} {n : Nat} {bs : List Byte} (h : m.readBelow n = .ok bs) :
    bs.length = n ∧ ∀ k (hk : k < bs.length), m.read k = .ok bs[k] := by
  induction n generalizing bs with
  | zero =>
    simp only [Memory.readBelow, Except.ok.injEq] at h
    subst h
    simp
  | succ n ih =>
    unfold Memory.readBelow at h
    split at h
    · rename_i xs b hx hb
      obtain ⟨hl, hr⟩ := ih hx
      simp only [Except.ok.injEq] at h
      subst h
      refine ⟨by simp [hl], fun k hk => ?_⟩
      by_cases hkn : k < xs.length
      · rw [List.getElem_append_left hkn]; exact hr k hkn
      · have : k = n := by simp at hk; omega
        subst this
        simpa [List.getElem_append_right, hl] using hb
    · cases h
    · cases h

/-- All the bytes below an index can be read when each is listed. -/
theorem Memory.readBelow_of_held {m : Memory} {n : Nat} (hn : n ≤ 17)
    (h : ∀ i, i < n → (m.byteAt i).isSome = true) : ∃ bs, m.readBelow n = .ok bs := by
  induction n with
  | zero => exact ⟨[], rfl⟩
  | succ n ih =>
    obtain ⟨bs, hbs⟩ := ih (by omega) fun i hi => h i (by omega)
    obtain ⟨b, hb⟩ := Option.isSome_iff_exists.mp (h n (by omega))
    exact ⟨bs ++ [b], by simp [Memory.readBelow, hbs, Memory.read_of_byteAt (by omega) hb]⟩

/-- A byte stored at or past an index is not among the bytes below it. -/
theorem Memory.readBelow_put (m : Memory) {n k : Nat} (v : Byte) (h : n ≤ k) :
    (m.put k v).readBelow n = m.readBelow n := by
  induction n with
  | zero => rfl
  | succ n ih =>
    simp only [Memory.readBelow, ih (by omega), Memory.read_put_other m v (show n ≠ k by omega)]

/-- Storing at index `n` appends to the bytes below `n`. -/
theorem Memory.readBelow_append {m : Memory} {n : Nat} {bs : List Byte} (v : Byte) (hn : n < 17)
    (h : m.readBelow n = .ok bs) : (m.put n v).readBelow (n + 1) = .ok (bs ++ [v]) := by
  simp [Memory.readBelow, Memory.readBelow_put m v (Nat.le_refl n), h, Memory.read_put_same m v hn]

/-! ### A row of cells -/

theorem Memory.byteAt_cellsFrom (i k : Nat) (bs : List Byte) :
    Memory.byteAt (cellsFrom i bs) (i + k) = bs[k]? := by
  induction bs generalizing i k with
  | nil => simp [cellsFrom, Memory.byteAt]
  | cons b bs ih =>
    cases k with
    | zero => simp [cellsFrom, Memory.byteAt]
    | succ k =>
      have hne : ¬ i = i + (k + 1) := by omega
      have := ih (i + 1) k
      simp only [cellsFrom, Memory.byteAt, hne, if_false, List.getElem?_cons_succ]
      rw [← this]
      congr 1
      omega

end Sys2Proof.Machine
end

