-- ==== Sys2Proof/Laws/Operands.lean ====
section
/-! SUPPORT. Once for each operand computation and each stage of the decoder, what it gives. Later proofs cite these
instead of unfolding bit fields and tables. -/

namespace Sys2Proof.Machine

/-! ### Operand bytes -/

theorem directionOf_eq (rv : Byte) : directionOf rv = decide (128 ≤ rv.toNat) := by
  revert rv
  decide

theorem rawSpeed_toNat (rv : Byte) : (rawSpeed rv).toNat = rv.toNat % 128 := by
  simp [rawSpeed]

/-- A short address is the low byte, a long one six bits and a byte (R160). -/
theorem locoAddr_toNat (ah al : Byte) : (locoAddr ah al).toNat = ah.toNat % 64 * 256 + al.toNat := by
  unfold locoAddr
  split
  · subst_vars
    simp
    omega
  · rw [BitVec.toNat_append, Nat.shiftLeft_eq, Nat.mul_comm, ← Nat.two_pow_add_eq_or_of_lt al.isLt]
    simp [Nat.mul_comm]

theorem accPair_toNat (a : Byte) (n : BitVec 1) :
    (accPair a n).first.toNat = 4 * a.toNat + 2 * n.toNat ∧
      (accPair a n).second.toNat = 4 * a.toNat + 2 * n.toNat + 1 := by
  constructor <;> simp [accPair] <;> omega

theorem opAddress_toNat (a b : Byte) : (opAddress a b).toNat = 4 * a.toNat + (b.extractLsb' 1 2).toNat := by
  have := (b.extractLsb' 1 2).isLt
  simp only [opAddress, BitVec.toNat_ofNat]
  omega

theorem versionOf_toNat (v : Byte) :
    (versionOf v).major.toNat = v.toNat / 16 ∧ (versionOf v).minor.toNat = v.toNat % 16 := by
  revert v
  decide

/-- A run puts bit `j` of its value at function `k + j`. -/
theorem fnRun_getLsbD (mask : BitVec 29) (k j : Nat) (v : BitVec 29) :
    (fnRun mask k v).bits.getLsbD j = (decide (j < 29) && !decide (j < k) && v.getLsbD (j - k)) := by
  simp [fnRun]

/-! ### The stages of the packet decoder -/

theorem headerCount_eq (h : Byte) : headerCount h = h.toNat % 16 := by
  simp [headerCount]

theorem framed_cons (h : Byte) (rest : List Byte) : framed (h :: rest) = (rest.length == headerCount h) := rfl

/-- A packet that decodes is framed, and its instruction is that of the operation its payload selects. -/
theorem decodePacket_ok {dir : Dir} {payload : List Byte} {i : Instr} (h : decodePacket dir payload = .ok i) :
    framed payload = true ∧ instrOfOp (selectOp dir payload) dir payload = .ok i := by
  unfold decodePacket at h
  split at h
  · rename_i hf
    exact ⟨hf, h⟩
  · cases h

/-- A device-to-station packet is never a broadcast (R142). -/
theorem bcastLookup_device (payload : List Byte) : bcastLookup .deviceToStation payload = none := by
  cases payload <;> rfl

/-- The lookup of a station-to-device packet of two bytes or more reads the first two alone (R144). -/
theorem bcastLookup_station (h x : Byte) (rest : List Byte) :
    bcastLookup .stationToDevice (h :: x :: rest)
      = (bcastTable.find? fun r => r.header == h && r.second == x).map (·.op) := rfl

end Sys2Proof.Machine
end

