-- ==== Sys2Proof/Laws/State.lean ====
section
/-! SUPPORT. What each register update does to each field of the state: true by definition, tagged so that no later proof
unfolds an update. -/

namespace Sys2Proof.Machine

/-! ### `State.setAddr` -/

@[simp] theorem State.setAddr_addr (s : State) (a : BitVec 5) : (s.setAddr a).addr = a := rfl
@[simp] theorem State.setAddr_asm (s : State) (a : BitVec 5) : (s.setAddr a).asm = s.asm := rfl
@[simp] theorem State.setAddr_swcb (s : State) (a : BitVec 5) : (s.setAddr a).swcb = s.swcb := rfl
@[simp] theorem State.setAddr_rem (s : State) (a : BitVec 5) : (s.setAddr a).rem = s.rem := rfl
@[simp] theorem State.setAddr_len (s : State) (a : BitVec 5) : (s.setAddr a).len = s.len := rfl
@[simp] theorem State.setAddr_buf (s : State) (a : BitVec 5) : (s.setAddr a).buf = s.buf := rfl
@[simp] theorem State.setAddr_start (s : State) (a : BitVec 5) : (s.setAddr a).start = s.start := rfl
@[simp] theorem State.setAddr_port (s : State) (a : BitVec 5) : (s.setAddr a).port = s.port := rfl
@[simp] theorem State.setAddr_inputs (s : State) (a : BitVec 5) : (s.setAddr a).inputs = s.inputs := rfl
@[simp] theorem State.setAddr_evt (s : State) (a : BitVec 5) : (s.setAddr a).evt = s.evt := rfl

/-! ### `State.emit` -/

@[simp] theorem State.emit_addr (s : State) (body : EventBody) (t0 t1 : Config.Time) : (s.emit body t0 t1).addr = s.addr := rfl
@[simp] theorem State.emit_asm (s : State) (body : EventBody) (t0 t1 : Config.Time) : (s.emit body t0 t1).asm = s.asm := rfl
@[simp] theorem State.emit_swcb (s : State) (body : EventBody) (t0 t1 : Config.Time) : (s.emit body t0 t1).swcb = s.swcb := rfl
@[simp] theorem State.emit_rem (s : State) (body : EventBody) (t0 t1 : Config.Time) : (s.emit body t0 t1).rem = s.rem := rfl
@[simp] theorem State.emit_len (s : State) (body : EventBody) (t0 t1 : Config.Time) : (s.emit body t0 t1).len = s.len := rfl
@[simp] theorem State.emit_buf (s : State) (body : EventBody) (t0 t1 : Config.Time) : (s.emit body t0 t1).buf = s.buf := rfl
@[simp] theorem State.emit_start (s : State) (body : EventBody) (t0 t1 : Config.Time) : (s.emit body t0 t1).start = s.start := rfl
@[simp] theorem State.emit_port (s : State) (body : EventBody) (t0 t1 : Config.Time) : (s.emit body t0 t1).port = s.port := rfl
@[simp] theorem State.emit_inputs (s : State) (body : EventBody) (t0 t1 : Config.Time) : (s.emit body t0 t1).inputs = s.inputs := rfl
@[simp] theorem State.emit_evt (s : State) (body : EventBody) (t0 t1 : Config.Time) : (s.emit body t0 t1).evt = some ⟨body, t0, t1⟩ := rfl

/-! ### `State.emitNone` -/

@[simp] theorem State.emitNone_addr (s : State) : (s.emitNone).addr = s.addr := rfl
@[simp] theorem State.emitNone_asm (s : State) : (s.emitNone).asm = s.asm := rfl
@[simp] theorem State.emitNone_swcb (s : State) : (s.emitNone).swcb = s.swcb := rfl
@[simp] theorem State.emitNone_rem (s : State) : (s.emitNone).rem = s.rem := rfl
@[simp] theorem State.emitNone_len (s : State) : (s.emitNone).len = s.len := rfl
@[simp] theorem State.emitNone_buf (s : State) : (s.emitNone).buf = s.buf := rfl
@[simp] theorem State.emitNone_start (s : State) : (s.emitNone).start = s.start := rfl
@[simp] theorem State.emitNone_port (s : State) : (s.emitNone).port = s.port := rfl
@[simp] theorem State.emitNone_inputs (s : State) : (s.emitNone).inputs = s.inputs := rfl
@[simp] theorem State.emitNone_evt (s : State) : (s.emitNone).evt = none := rfl

/-! ### `State.emitSymbol` -/

@[simp] theorem State.emitSymbol_addr (s : State) (body : EventBody) : (s.emitSymbol body).addr = s.addr := rfl
@[simp] theorem State.emitSymbol_asm (s : State) (body : EventBody) : (s.emitSymbol body).asm = s.asm := rfl
@[simp] theorem State.emitSymbol_swcb (s : State) (body : EventBody) : (s.emitSymbol body).swcb = s.swcb := rfl
@[simp] theorem State.emitSymbol_rem (s : State) (body : EventBody) : (s.emitSymbol body).rem = s.rem := rfl
@[simp] theorem State.emitSymbol_len (s : State) (body : EventBody) : (s.emitSymbol body).len = s.len := rfl
@[simp] theorem State.emitSymbol_buf (s : State) (body : EventBody) : (s.emitSymbol body).buf = s.buf := rfl
@[simp] theorem State.emitSymbol_start (s : State) (body : EventBody) : (s.emitSymbol body).start = s.start := rfl
@[simp] theorem State.emitSymbol_port (s : State) (body : EventBody) : (s.emitSymbol body).port = s.port := rfl
@[simp] theorem State.emitSymbol_inputs (s : State) (body : EventBody) : (s.emitSymbol body).inputs = s.inputs := rfl
@[simp] theorem State.emitSymbol_evt (s : State) (body : EventBody) : (s.emitSymbol body).evt = some ⟨body, s.port.symStart, s.port.symEnd⟩ := rfl

/-! ### `State.emitPacket` -/

@[simp] theorem State.emitPacket_addr (s : State) (body : EventBody) : (s.emitPacket body).addr = s.addr := rfl
@[simp] theorem State.emitPacket_asm (s : State) (body : EventBody) : (s.emitPacket body).asm = s.asm := rfl
@[simp] theorem State.emitPacket_swcb (s : State) (body : EventBody) : (s.emitPacket body).swcb = s.swcb := rfl
@[simp] theorem State.emitPacket_rem (s : State) (body : EventBody) : (s.emitPacket body).rem = s.rem := rfl
@[simp] theorem State.emitPacket_len (s : State) (body : EventBody) : (s.emitPacket body).len = s.len := rfl
@[simp] theorem State.emitPacket_buf (s : State) (body : EventBody) : (s.emitPacket body).buf = s.buf := rfl
@[simp] theorem State.emitPacket_start (s : State) (body : EventBody) : (s.emitPacket body).start = s.start := rfl
@[simp] theorem State.emitPacket_port (s : State) (body : EventBody) : (s.emitPacket body).port = s.port := rfl
@[simp] theorem State.emitPacket_inputs (s : State) (body : EventBody) : (s.emitPacket body).inputs = s.inputs := rfl
@[simp] theorem State.emitPacket_evt (s : State) (body : EventBody) : (s.emitPacket body).evt = some ⟨body, s.start, s.port.symEnd⟩ := rfl

/-! ### `State.openCalled` -/

@[simp] theorem State.openCalled_addr (s : State) (t : Config.Time) : (s.openCalled t).addr = s.addr := rfl
@[simp] theorem State.openCalled_asm (s : State) (t : Config.Time) : (s.openCalled t).asm = .awaitingHeader := rfl
@[simp] theorem State.openCalled_swcb (s : State) (t : Config.Time) : (s.openCalled t).swcb = true := rfl
@[simp] theorem State.openCalled_rem (s : State) (t : Config.Time) : (s.openCalled t).rem = 0 := rfl
@[simp] theorem State.openCalled_len (s : State) (t : Config.Time) : (s.openCalled t).len = 0 := rfl
@[simp] theorem State.openCalled_buf (s : State) (t : Config.Time) : (s.openCalled t).buf = s.buf := rfl
@[simp] theorem State.openCalled_start (s : State) (t : Config.Time) : (s.openCalled t).start = t := rfl
@[simp] theorem State.openCalled_port (s : State) (t : Config.Time) : (s.openCalled t).port = s.port := rfl
@[simp] theorem State.openCalled_inputs (s : State) (t : Config.Time) : (s.openCalled t).inputs = s.inputs := rfl
@[simp] theorem State.openCalled_evt (s : State) (t : Config.Time) : (s.openCalled t).evt = s.evt := rfl

/-! ### `State.openBare` -/

@[simp] theorem State.openBare_addr (s : State) (t : Config.Time) : (s.openBare t).addr = s.addr := rfl
@[simp] theorem State.openBare_asm (s : State) (t : Config.Time) : (s.openBare t).asm = s.asm := rfl
@[simp] theorem State.openBare_swcb (s : State) (t : Config.Time) : (s.openBare t).swcb = false := rfl
@[simp] theorem State.openBare_rem (s : State) (t : Config.Time) : (s.openBare t).rem = s.rem := rfl
@[simp] theorem State.openBare_len (s : State) (t : Config.Time) : (s.openBare t).len = s.len := rfl
@[simp] theorem State.openBare_buf (s : State) (t : Config.Time) : (s.openBare t).buf = s.buf := rfl
@[simp] theorem State.openBare_start (s : State) (t : Config.Time) : (s.openBare t).start = t := rfl
@[simp] theorem State.openBare_port (s : State) (t : Config.Time) : (s.openBare t).port = s.port := rfl
@[simp] theorem State.openBare_inputs (s : State) (t : Config.Time) : (s.openBare t).inputs = s.inputs := rfl
@[simp] theorem State.openBare_evt (s : State) (t : Config.Time) : (s.openBare t).evt = s.evt := rfl

/-! ### `State.startCollecting` -/

@[simp] theorem State.startCollecting_addr (s : State) (h : Byte) : (s.startCollecting h).addr = s.addr := rfl
@[simp] theorem State.startCollecting_asm (s : State) (h : Byte) : (s.startCollecting h).asm = .collecting := rfl
@[simp] theorem State.startCollecting_swcb (s : State) (h : Byte) : (s.startCollecting h).swcb = s.swcb := rfl
@[simp] theorem State.startCollecting_rem (s : State) (h : Byte) : (s.startCollecting h).rem = remOfHeader h := rfl
@[simp] theorem State.startCollecting_len (s : State) (h : Byte) : (s.startCollecting h).len = 1 := rfl
@[simp] theorem State.startCollecting_buf (s : State) (h : Byte) : (s.startCollecting h).buf = s.buf := rfl
@[simp] theorem State.startCollecting_start (s : State) (h : Byte) : (s.startCollecting h).start = s.start := rfl
@[simp] theorem State.startCollecting_port (s : State) (h : Byte) : (s.startCollecting h).port = s.port := rfl
@[simp] theorem State.startCollecting_inputs (s : State) (h : Byte) : (s.startCollecting h).inputs = s.inputs := rfl
@[simp] theorem State.startCollecting_evt (s : State) (h : Byte) : (s.startCollecting h).evt = s.evt := rfl

/-! ### `State.advance` -/

@[simp] theorem State.advance_addr (s : State) : (s.advance).addr = s.addr := rfl
@[simp] theorem State.advance_asm (s : State) : (s.advance).asm = s.asm := rfl
@[simp] theorem State.advance_swcb (s : State) : (s.advance).swcb = s.swcb := rfl
@[simp] theorem State.advance_rem (s : State) : (s.advance).rem = s.rem - 1 := rfl
@[simp] theorem State.advance_len (s : State) : (s.advance).len = s.len + 1 := rfl
@[simp] theorem State.advance_buf (s : State) : (s.advance).buf = s.buf := rfl
@[simp] theorem State.advance_start (s : State) : (s.advance).start = s.start := rfl
@[simp] theorem State.advance_port (s : State) : (s.advance).port = s.port := rfl
@[simp] theorem State.advance_inputs (s : State) : (s.advance).inputs = s.inputs := rfl
@[simp] theorem State.advance_evt (s : State) : (s.advance).evt = s.evt := rfl

/-! ### `State.closePacket` -/

@[simp] theorem State.closePacket_addr (s : State) : (s.closePacket).addr = s.addr := rfl
@[simp] theorem State.closePacket_asm (s : State) : (s.closePacket).asm = .idle := rfl
@[simp] theorem State.closePacket_swcb (s : State) : (s.closePacket).swcb = false := rfl
@[simp] theorem State.closePacket_rem (s : State) : (s.closePacket).rem = 0 := rfl
@[simp] theorem State.closePacket_len (s : State) : (s.closePacket).len = 0 := rfl
@[simp] theorem State.closePacket_buf (s : State) : (s.closePacket).buf = s.buf := rfl
@[simp] theorem State.closePacket_start (s : State) : (s.closePacket).start = s.start := rfl
@[simp] theorem State.closePacket_port (s : State) : (s.closePacket).port = s.port := rfl
@[simp] theorem State.closePacket_inputs (s : State) : (s.closePacket).inputs = s.inputs := rfl
@[simp] theorem State.closePacket_evt (s : State) : (s.closePacket).evt = s.evt := rfl

/-! ### `State.setBuf` -/

@[simp] theorem State.setBuf_addr (s : State) (m : Memory) : (s.setBuf m).addr = s.addr := rfl
@[simp] theorem State.setBuf_asm (s : State) (m : Memory) : (s.setBuf m).asm = s.asm := rfl
@[simp] theorem State.setBuf_swcb (s : State) (m : Memory) : (s.setBuf m).swcb = s.swcb := rfl
@[simp] theorem State.setBuf_rem (s : State) (m : Memory) : (s.setBuf m).rem = s.rem := rfl
@[simp] theorem State.setBuf_len (s : State) (m : Memory) : (s.setBuf m).len = s.len := rfl
@[simp] theorem State.setBuf_buf (s : State) (m : Memory) : (s.setBuf m).buf = m := rfl
@[simp] theorem State.setBuf_start (s : State) (m : Memory) : (s.setBuf m).start = s.start := rfl
@[simp] theorem State.setBuf_port (s : State) (m : Memory) : (s.setBuf m).port = s.port := rfl
@[simp] theorem State.setBuf_inputs (s : State) (m : Memory) : (s.setBuf m).inputs = s.inputs := rfl
@[simp] theorem State.setBuf_evt (s : State) (m : Memory) : (s.setBuf m).evt = s.evt := rfl

/-! ### `State.latch` -/

@[simp] theorem State.latch_addr (s : State) (p : Ports) (rest : List Ports) : (s.latch p rest).addr = s.addr := rfl
@[simp] theorem State.latch_asm (s : State) (p : Ports) (rest : List Ports) : (s.latch p rest).asm = s.asm := rfl
@[simp] theorem State.latch_swcb (s : State) (p : Ports) (rest : List Ports) : (s.latch p rest).swcb = s.swcb := rfl
@[simp] theorem State.latch_rem (s : State) (p : Ports) (rest : List Ports) : (s.latch p rest).rem = s.rem := rfl
@[simp] theorem State.latch_len (s : State) (p : Ports) (rest : List Ports) : (s.latch p rest).len = s.len := rfl
@[simp] theorem State.latch_buf (s : State) (p : Ports) (rest : List Ports) : (s.latch p rest).buf = s.buf := rfl
@[simp] theorem State.latch_start (s : State) (p : Ports) (rest : List Ports) : (s.latch p rest).start = s.start := rfl
@[simp] theorem State.latch_port (s : State) (p : Ports) (rest : List Ports) : (s.latch p rest).port = p := rfl
@[simp] theorem State.latch_inputs (s : State) (p : Ports) (rest : List Ports) : (s.latch p rest).inputs = rest := rfl
@[simp] theorem State.latch_evt (s : State) (p : Ports) (rest : List Ports) : (s.latch p rest).evt = none := rfl

/-! ### `State.resetCycle` -/

@[simp] theorem State.resetCycle_addr (s : State) : (s.resetCycle).addr = 0 := rfl
@[simp] theorem State.resetCycle_asm (s : State) : (s.resetCycle).asm = .idle := rfl
@[simp] theorem State.resetCycle_swcb (s : State) : (s.resetCycle).swcb = false := rfl
@[simp] theorem State.resetCycle_rem (s : State) : (s.resetCycle).rem = 0 := rfl
@[simp] theorem State.resetCycle_len (s : State) : (s.resetCycle).len = 0 := rfl
@[simp] theorem State.resetCycle_buf (s : State) : (s.resetCycle).buf = [] := rfl
@[simp] theorem State.resetCycle_start (s : State) : (s.resetCycle).start = 0 := rfl
@[simp] theorem State.resetCycle_port (s : State) : (s.resetCycle).port = s.port := rfl
@[simp] theorem State.resetCycle_inputs (s : State) : (s.resetCycle).inputs = s.inputs := rfl
@[simp] theorem State.resetCycle_evt (s : State) : (s.resetCycle).evt = none := rfl

end Sys2Proof.Machine
end

