-- ==== Sys2Proof/Laws/Ops.lean ====
section
/-! SUPPORT. Once for each shared operation, what it can do: the store, the invariant, the dispatcher, the completed
packet, a cycle's fetch and the step. Later proofs cite these instead of unfolding the operations. -/

namespace Sys2Proof.Machine

/-! ### The store and the operand `REM` -/

/-- A store inside `BUF` goes on with the byte in place; outside it faults. -/
theorem storeThen_eq (s : State) (i : Nat) (b : Byte) (k : State → Outcome) :
    storeThen s i b k = if i < 17 then k (s.setBuf (s.buf.put i b)) else .fault (.bufIndex i) := by
  by_cases h : i < 17 <;> simp [storeThen, Memory.write_eq, h]

theorem headerCount_le (h : Byte) : headerCount h ≤ 15 := by
  unfold headerCount
  omega

theorem remOfHeader_toNat (h : Byte) : (remOfHeader h).toNat = headerCount h + 1 := by
  have := headerCount_le h
  unfold headerCount at this
  simp only [remOfHeader, headerCount, BitVec.toNat_add, BitVec.toNat_setWidth]
  simp
  omega

/-! ### The invariant of R29 -/

theorem State.lawful_of_idle {s : State} (h : s.asm = .idle) :
    s.lawful = true ↔ s.swcb = false ∧ s.rem = 0 ∧ s.len = 0 := by
  simp [State.lawful, h, and_assoc]

theorem State.lawful_of_awaitingHeader {s : State} (h : s.asm = .awaitingHeader) :
    s.lawful = true ↔ s.swcb = true ∧ s.rem = 0 ∧ s.len = 0 := by
  simp [State.lawful, h, and_assoc]

theorem State.lawful_of_collecting {s : State} (h : s.asm = .collecting) :
    s.lawful = true ↔ ∃ hd, s.buf.read 0 = .ok hd ∧ 1 ≤ s.rem.toNat ∧ s.rem.toNat ≤ 16 ∧ 1 ≤ s.len.toNat
      ∧ s.len.toNat ≤ 16 ∧ s.len.toNat + s.rem.toNat = headerCount hd + 2 := by
  simp only [State.lawful, h, State.collectingLawful]
  cases s.buf.read 0 <;> simp [and_assoc]

/-- Lawfulness reads the assembler registers and the buffer alone. -/
theorem State.lawful_congr {s t : State} (h1 : s.asm = t.asm) (h2 : s.swcb = t.swcb) (h3 : s.rem = t.rem)
    (h4 : s.len = t.len) (h5 : s.buf = t.buf) : s.lawful = t.lawful := by
  simp [State.lawful, State.collectingLawful, h1, h2, h3, h4, h5]

theorem State.bytesHeld_iff {s : State} :
    s.bytesHeld = true ↔ ∀ i, i < s.len.toNat → (s.buf.byteAt i).isSome = true := by
  simp [State.bytesHeld]

/-! ### The dispatcher -/

/-- A dispatch that answers decoded a framed payload and reports that instruction's body. -/
theorem dispatch_ok {dir : Dir} {payload : List Byte} {body : EventBody} (h : dispatch dir payload = .ok body) :
    ∃ i, decodePacket dir payload = .ok i ∧ packetBody i = some body := by
  unfold dispatch at h
  split at h
  · cases h
  · rename_i i hi
    split at h
    · exact ⟨i, hi, by simp_all⟩
    · cases h

theorem dispatch_of_decode {dir : Dir} {payload : List Byte} {i : Instr} {body : EventBody}
    (hd : decodePacket dir payload = .ok i) (hb : packetBody i = some body) : dispatch dir payload = .ok body := by
  simp [dispatch, hd, hb]

/-- The one shape of a packet-level meaning: its body is driven over the packet's time range, nothing else changes. -/
theorem exec_of_packetBody {i : Instr} {body : EventBody} (h : packetBody i = some body) (s : State) :
    exec i s = .next (s.emitPacket body) := by
  cases i <;> simp only [packetBody, Option.some.injEq, reduceCtorEq] at h <;> subst h <;> rfl

/-- A completed packet is the bytes below `LEN`, in the direction and time range of the registers. -/
theorem completedPacket_ok {s : State} {p : CompletedPacket} (h : completedPacket s = .ok p) :
    s.buf.readBelow s.len.toNat = .ok p.payload ∧ p.direction = dirOfSwcb s.swcb ∧ p.startTime = s.start
      ∧ p.endTime = s.port.symEnd := by
  unfold completedPacket at h
  split at h
  · rename_i payload hp
    simp only [Except.ok.injEq] at h
    subst h
    exact ⟨hp, rfl, rfl, rfl⟩
  · cases h

theorem completedPacket_eq {s : State} {bs : List Byte} (h : s.buf.readBelow s.len.toNat = .ok bs) :
    completedPacket s = .ok ⟨dirOfSwcb s.swcb, bs.headD 0, bs, s.start, s.port.symEnd⟩ := by
  simp [completedPacket, h]

/-! ### A cycle -/

theorem fetch_nil {s : State} (h : s.inputs = []) : fetch s = .done s.emitNone := by
  simp [fetch, h]

theorem fetch_rst {s : State} {p : Ports} {rest : List Ports} (h : s.inputs = p :: rest) (hr : p.rst = true) :
    fetch s = .done (s.latch p rest).resetCycle := by
  simp [fetch, h, hr]

theorem fetch_quiet {s : State} {p : Ports} {rest : List Ports} (h : s.inputs = p :: rest) (hr : p.rst = false)
    (hv : p.symValid = false) : fetch s = .done (s.latch p rest) := by
  simp [fetch, h, hr, hv]

theorem fetch_symbol {s : State} {p : Ports} {rest : List Ports} (h : s.inputs = p :: rest) (hr : p.rst = false)
    (hv : p.symValid = true) : fetch s = fetchSymbol p (s.latch p rest) := by
  simp [fetch, h, hr, hv]

/-- What a cycle with a presented symbol comes to, by R11, R101 and R100. -/
theorem fetchSymbol_eq (p : Ports) (t : State) :
    fetchSymbol p t = if t.lawful = false then .stop .outsideInvariant
      else if p.symErr = true then .done t else .run (decodeSymbol p.symValue) t := rfl

/-- Everything a step that answers a next state can have done: nothing was presented, or the cycle was a reset, one
without a symbol, a skipped symbol, or one whose instruction answered. -/
theorem step_next {s t : State} (h : step s = .next t) :
    (s.inputs = [] ∧ t = s.emitNone) ∨
    ∃ p rest, s.inputs = p :: rest ∧
      ((p.rst = true ∧ t = (s.latch p rest).resetCycle) ∨
       (p.rst = false ∧ p.symValid = false ∧ t = s.latch p rest) ∨
       (p.rst = false ∧ p.symValid = true ∧ s.lawful = true ∧ p.symErr = true ∧ t = s.latch p rest) ∨
       (p.rst = false ∧ p.symValid = true ∧ s.lawful = true ∧ p.symErr = false ∧
         exec (decodeSymbol p.symValue) (s.latch p rest) = .next t)) := by
  rcases hin : s.inputs with _ | ⟨p, rest⟩
  · left
    simp only [step, fetch_nil hin] at h
    exact ⟨rfl, by simpa using h.symm⟩
  · right
    refine ⟨p, rest, rfl, ?_⟩
    have hl : (s.latch p rest).lawful = s.lawful := State.lawful_congr rfl rfl rfl rfl rfl
    cases hr : p.rst with
    | true =>
      simp only [step, fetch_rst hin hr] at h
      exact .inl ⟨rfl, by simpa using h.symm⟩
    | false =>
      cases hv : p.symValid with
      | false =>
        simp only [step, fetch_quiet hin hr hv] at h
        exact .inr (.inl ⟨rfl, rfl, by simpa using h.symm⟩)
      | true =>
        simp only [step, fetch_symbol hin hr hv, fetchSymbol_eq, hl] at h
        cases hlaw : s.lawful with
        | false => simp [hlaw] at h
        | true =>
          cases he : p.symErr with
          | true =>
            simp only [hlaw, he] at h
            exact .inr (.inr (.inl ⟨rfl, rfl, rfl, rfl, by simpa using h.symm⟩))
          | false =>
            simp only [hlaw, he] at h
            exact .inr (.inr (.inr ⟨rfl, rfl, rfl, rfl, by simpa using h⟩))

/-- One step of a run of the machine, where the step answers. -/
theorem core_run_succ {s t : State} (n : Nat) (h : step s = .next t) :
    Host.Core.run Sys2Proof.core (n + 1) s = Host.Core.run Sys2Proof.core n t := by
  have h' : Sys2Proof.core.step s = .next t := h
  simp only [Host.Core.run, h']

/-! ### A symbol's instruction -/

/-- A symbol decodes by its marker and category to one of five instructions. -/
theorem decodeSymbol_cases (v : Symbol) :
    (isCallByte v = false ∧ decodeSymbol v = .data (lowByte v)) ∨
    (isCallByte v = true ∧
      (decodeSymbol v = .callRqack (bit7Of (lowByte v)) (addressOf (lowByte v)) ∨
       decodeSymbol v = .callFb (bit7Of (lowByte v)) (addressOf (lowByte v)) ∨
       decodeSymbol v = .callInq (bit7Of (lowByte v)) (addressOf (lowByte v)) ∨
       decodeSymbol v = .callBa (bit7Of (lowByte v)) (addressOf (lowByte v)))) := by
  cases hc : isCallByte v
  · exact .inl ⟨rfl, by simp [decodeSymbol, classify, hc]⟩
  · refine .inr ⟨rfl, ?_⟩
    simp only [decodeSymbol, classify, hc, if_true]
    cases categoryOf (lowByte v) <;> simp

/-- The hand-over of a data byte (R108). -/
theorem exec_data_eq (b : Byte) (s : State) :
    exec (.data b) s =
      match s.asm with
      | .idle => exec (.dataHdr0 b) s
      | .awaitingHeader => exec (.dataHdr1 b) s
      | .collecting =>
        if 1 < s.rem.toNat then exec (.dataBody b) s
        else if s.rem.toNat = 1 then exec (.dataLast b) s
        else .refused .outsideInvariant := rfl

end Sys2Proof.Machine
end

