-- ==== Sys2Proof/Laws/PerInstr.lean ====
section
/-! SUPPORT. Statements for all instructions, one lemma per constructor of `Instr`. -/

namespace Sys2Proof.Laws

/-- The encoding of a well-formed instruction is a code the block can be presented with: any symbol, or a packet whose
length is the one its header declares (R70, R127). -/
def EncodeFramed.Statement (i : Instr) : Prop :=
  i.wellFormed = true → (encode i).wellFramed = true

theorem EncodeFramed.callRqack (bit7 : BitVec 1) (a : BitVec 5) : EncodeFramed.Statement (.callRqack bit7 a) := fun _ => rfl

theorem EncodeFramed.callFb (bit7 : BitVec 1) (a : BitVec 5) : EncodeFramed.Statement (.callFb bit7 a) := fun _ => rfl

theorem EncodeFramed.callInq (bit7 : BitVec 1) (a : BitVec 5) : EncodeFramed.Statement (.callInq bit7 a) := fun _ => rfl

theorem EncodeFramed.callBa (bit7 : BitVec 1) (a : BitVec 5) : EncodeFramed.Statement (.callBa bit7 a) := fun _ => rfl

theorem EncodeFramed.data (b : Byte) : EncodeFramed.Statement (.data b) := fun _ => rfl

theorem EncodeFramed.dataHdr0 (b : Byte) : EncodeFramed.Statement (.dataHdr0 b) := fun _ => rfl

theorem EncodeFramed.dataHdr1 (b : Byte) : EncodeFramed.Statement (.dataHdr1 b) := fun _ => rfl

theorem EncodeFramed.dataBody (b : Byte) : EncodeFramed.Statement (.dataBody b) := fun _ => rfl

theorem EncodeFramed.dataLast (b : Byte) : EncodeFramed.Statement (.dataLast b) := fun _ => rfl

theorem EncodeFramed.bcResume : EncodeFramed.Statement .bcResume := fun _ => rfl

theorem EncodeFramed.bcPwroff : EncodeFramed.Statement .bcPwroff := fun _ => rfl

theorem EncodeFramed.bcShort : EncodeFramed.Statement .bcShort := fun _ => rfl

theorem EncodeFramed.bcEstop : EncodeFramed.Statement .bcEstop := fun _ => rfl

theorem EncodeFramed.bcSvcmode : EncodeFramed.Statement .bcSvcmode := fun _ => rfl

theorem EncodeFramed.ackResp : EncodeFramed.Statement .ackResp := fun _ => rfl

theorem EncodeFramed.reqVersion : EncodeFramed.Statement .reqVersion := fun _ => rfl

theorem EncodeFramed.reqStatus : EncodeFramed.Statement .reqStatus := fun _ => rfl

theorem EncodeFramed.reqStop : EncodeFramed.Statement .reqStop := fun _ => rfl

theorem EncodeFramed.reqResume : EncodeFramed.Statement .reqResume := fun _ => rfl

theorem EncodeFramed.accInforeq (a b : Byte) : EncodeFramed.Statement (.accInforeq a b) := fun _ => rfl

theorem EncodeFramed.accOpreq (a b : Byte) : EncodeFramed.Statement (.accOpreq a b) := fun _ => rfl

theorem EncodeFramed.locoSpd14 (ah al rv : Byte) : EncodeFramed.Statement (.locoSpd14 ah al rv) := fun _ => rfl

theorem EncodeFramed.locoSpd27 (ah al rv : Byte) : EncodeFramed.Statement (.locoSpd27 ah al rv) := fun _ => rfl

theorem EncodeFramed.locoSpd28 (ah al rv : Byte) : EncodeFramed.Statement (.locoSpd28 ah al rv) := fun _ => rfl

theorem EncodeFramed.locoSpd128 (ah al rv : Byte) : EncodeFramed.Statement (.locoSpd128 ah al rv) := fun _ => rfl

theorem EncodeFramed.locoFnG1 (ah al d : Byte) : EncodeFramed.Statement (.locoFnG1 ah al d) := fun _ => rfl

theorem EncodeFramed.locoFnG2 (ah al d : Byte) : EncodeFramed.Statement (.locoFnG2 ah al d) := fun _ => rfl

theorem EncodeFramed.locoFnG3 (ah al d : Byte) : EncodeFramed.Statement (.locoFnG3 ah al d) := fun _ => rfl

theorem EncodeFramed.locoFnG4 (ah al d : Byte) : EncodeFramed.Statement (.locoFnG4 ah al d) := fun _ => rfl

theorem EncodeFramed.locoFnstG1 (ah al d : Byte) : EncodeFramed.Statement (.locoFnstG1 ah al d) := fun _ => rfl

theorem EncodeFramed.locoFnstG2 (ah al d : Byte) : EncodeFramed.Statement (.locoFnstG2 ah al d) := fun _ => rfl

theorem EncodeFramed.locoFnstG3 (ah al d : Byte) : EncodeFramed.Statement (.locoFnstG3 ah al d) := fun _ => rfl

theorem EncodeFramed.locoFnstG4 (ah al d : Byte) : EncodeFramed.Statement (.locoFnstG4 ah al d) := fun _ => rfl

theorem EncodeFramed.locoFnstG5 (ah al d : Byte) : EncodeFramed.Statement (.locoFnstG5 ah al d) := fun _ => rfl

theorem EncodeFramed.accInforesp (a b : Byte) : EncodeFramed.Statement (.accInforesp a b) := fun _ => rfl

theorem EncodeFramed.errTransfer : EncodeFramed.Statement .errTransfer := fun _ => rfl

theorem EncodeFramed.errBusy : EncodeFramed.Statement .errBusy := fun _ => rfl

theorem EncodeFramed.errNotsupp : EncodeFramed.Statement .errNotsupp := fun _ => rfl

theorem EncodeFramed.staStatus (st : Byte) : EncodeFramed.Statement (.staStatus st) := fun _ => rfl

theorem EncodeFramed.staVersion (v stationId : Byte) : EncodeFramed.Statement (.staVersion v stationId) := fun _ => rfl

theorem EncodeFramed.locoFnstat (s0 s1 : Byte) : EncodeFramed.Statement (.locoFnstat s0 s1) := fun _ => rfl

theorem EncodeFramed.locoFnhi (b2 b3 : Byte) : EncodeFramed.Statement (.locoFnhi b2 b3) := fun _ => rfl

theorem EncodeFramed.locoFnstathi (b2 b3 b4 : Byte) : EncodeFramed.Statement (.locoFnstathi b2 b3 b4) := fun _ => rfl

theorem EncodeFramed.unknown (dir : Dir) (payload : List Byte) : EncodeFramed.Statement (.unknown dir payload) := by
  intro h
  simp only [Instr.wellFormed, unknownWellFormed, Bool.and_eq_true] at h
  exact h.1

end Sys2Proof.Laws
end

