-- ==== Sys2Proof/Tests/Slice0.lean ====
section
/-! SUPPORT. Tests: what `WellFormed` refuses, words written out from spec/30_encoding.md, single steps with the results
spec/95_test_vectors.md or the rules' own examples give, and a witness for the hypotheses of every statement. -/

namespace Sys2Proof.Tests

open Sys2Proof Sys2Proof.Machine

/-! ### What is not well formed -/

/-- `UNKNOWN` without a header byte. -/
theorem test_wf_refuses_empty_payload : (Instr.unknown .deviceToStation []).wellFormed = false := rfl

/-- `UNKNOWN` whose header `0x99` declares nine bytes and has one. -/
theorem test_wf_refuses_misframed_payload : (Instr.unknown .deviceToStation [0x99, 0x01]).wellFormed = false := rfl

/-- `UNKNOWN` over the bytes of `ACK.RESP`, `BC.PWROFF` and `ACC.OPREQ`. -/
theorem test_wf_refuses_other_rows :
    (Instr.unknown .deviceToStation [0x20]).wellFormed = false ∧
    (Instr.unknown .stationToDevice [0x61, 0x00]).wellFormed = false ∧
    (Instr.unknown .deviceToStation [0x52, 0x03, 0x05]).wellFormed = false := ⟨rfl, rfl, rfl⟩

/-- The same bytes in the other direction are `UNKNOWN` (R82). -/
theorem test_wf_accepts_unknown :
    (Instr.unknown .stationToDevice [0x20]).wellFormed = true ∧
    (Instr.unknown .deviceToStation [0x61, 0x00]).wellFormed = true := ⟨rfl, rfl⟩

/-! ### Words written out from the encodings -/

/-- R71: marker, bit 7, category, address. -/
theorem test_decode_call_bytes :
    decodeSymbol 0b1_0_00_11111#9 = .callRqack 0 31 ∧ decodeSymbol 0b1_1_00_00011#9 = .callRqack 1 3 ∧
    decodeSymbol 0b1_0_01_00001#9 = .callFb 0 1 ∧ decodeSymbol 0b1_1_10_00001#9 = .callInq 1 1 ∧
    decodeSymbol 0b1_0_11_00001#9 = .callBa 0 1 := by decide

/-- R71: a data byte; the sub-operations of `DATA` have its bits and decode to it. -/
theorem test_decode_data :
    decodeSymbol 0b0_01010010#9 = .data 0x52 ∧ decodeTableWord 16 0b0_11111111 = some (.data 0xFF) ∧
    encode (.dataHdr0 0x52) = .symbol 0b0_01010010#9 ∧ encode (.dataHdr1 0x61) = .symbol 0b0_01100001#9 ∧
    encode (.dataBody 0x03) = .symbol 0b0_00000011#9 ∧ encode (.dataLast 0x54) = .symbol 0b0_01010100#9 := by decide

/-- R144: the five broadcast pairs. -/
theorem test_decode_broadcasts :
    decodePacket .stationToDevice [0b01100001, 0b00000001] = .ok .bcResume ∧
    decodePacket .stationToDevice [0b01100001, 0b00000000] = .ok .bcPwroff ∧
    decodePacket .stationToDevice [0b01100001, 0b00001000] = .ok .bcShort ∧
    decodePacket .stationToDevice [0b10000001, 0b00000000] = .ok .bcEstop ∧
    decodePacket .stationToDevice [0b01100001, 0b00000010] = .ok .bcSvcmode := ⟨rfl, rfl, rfl, rfl, rfl⟩

/-- R84: acknowledgment and requests. -/
theorem test_decode_requests :
    decodePacket .deviceToStation [0b00100000] = .ok .ackResp ∧
    decodePacket .deviceToStation [0b00100001, 0b00100001] = .ok .reqVersion ∧
    decodePacket .deviceToStation [0b00100001, 0b00100100] = .ok .reqStatus ∧
    decodePacket .deviceToStation [0b00100001, 0b10000000] = .ok .reqStop ∧
    decodePacket .deviceToStation [0b00100001, 0b10000001] = .ok .reqResume := ⟨rfl, rfl, rfl, rfl, rfl⟩

/-- R84, R85: the accessory packets; `0x42` means different things in the two directions (R78). -/
theorem test_decode_accessory :
    decodePacket .deviceToStation [0b01000010, 0b00000011, 0b10000001] = .ok (.accInforeq 0x03 0x81) ∧
    decodePacket .stationToDevice [0b01000010, 0b00000011, 0b00011001] = .ok (.accInforesp 0x03 0x19) ∧
    decodePacket .deviceToStation [0b01010010, 0b00000011, 0b00000101] = .ok (.accOpreq 0x03 0x05) :=
  ⟨rfl, rfl, rfl⟩

/-- R84: the speed packets. -/
theorem test_decode_speed :
    decodePacket .deviceToStation [0b11100100, 0b00010000, 0x01, 0x02, 0x03] = .ok (.locoSpd14 1 2 3) ∧
    decodePacket .deviceToStation [0b11100100, 0b00010001, 0x01, 0x02, 0x03] = .ok (.locoSpd27 1 2 3) ∧
    decodePacket .deviceToStation [0b11100100, 0b00010010, 0x01, 0x02, 0x03] = .ok (.locoSpd28 1 2 3) ∧
    decodePacket .deviceToStation [0b11100100, 0b00010011, 0x01, 0x02, 0x03] = .ok (.locoSpd128 1 2 3) :=
  ⟨rfl, rfl, rfl, rfl⟩

/-- R84: the function operation and function state packets. -/
theorem test_decode_functions :
    decodePacket .deviceToStation [0b11100100, 0b00100000, 1, 2, 3] = .ok (.locoFnG1 1 2 3) ∧
    decodePacket .deviceToStation [0b11100100, 0b00100001, 1, 2, 3] = .ok (.locoFnG2 1 2 3) ∧
    decodePacket .deviceToStation [0b11100100, 0b00100010, 1, 2, 3] = .ok (.locoFnG3 1 2 3) ∧
    decodePacket .deviceToStation [0b11100100, 0b00100011, 1, 2, 3] = .ok (.locoFnG4 1 2 3) ∧
    decodePacket .deviceToStation [0b11100100, 0b00100100, 1, 2, 3] = .ok (.locoFnstG1 1 2 3) ∧
    decodePacket .deviceToStation [0b11100100, 0b00100101, 1, 2, 3] = .ok (.locoFnstG2 1 2 3) ∧
    decodePacket .deviceToStation [0b11100100, 0b00100110, 1, 2, 3] = .ok (.locoFnstG3 1 2 3) ∧
    decodePacket .deviceToStation [0b11100100, 0b00100111, 1, 2, 3] = .ok (.locoFnstG4 1 2 3) ∧
    decodePacket .deviceToStation [0b11100100, 0b00101100, 1, 2, 3] = .ok (.locoFnstG5 1 2 3) :=
  ⟨rfl, rfl, rfl, rfl, rfl, rfl, rfl, rfl, rfl⟩

/-- R85: errors, status, version and the station's function packets. -/
theorem test_decode_station :
    decodePacket .stationToDevice [0b01100001, 0b10000000] = .ok .errTransfer ∧
    decodePacket .stationToDevice [0b01100001, 0b10000001] = .ok .errBusy ∧
    decodePacket .stationToDevice [0b01100001, 0b10000010] = .ok .errNotsupp ∧
    decodePacket .stationToDevice [0b01100010, 0b00100010, 1] = .ok (.staStatus 1) ∧
    decodePacket .stationToDevice [0b01100011, 0b00100001, 1, 2] = .ok (.staVersion 1 2) ∧
    decodePacket .stationToDevice [0b11100011, 0b01010000, 1, 2] = .ok (.locoFnstat 1 2) ∧
    decodePacket .stationToDevice [0b11100011, 0b01010010, 1, 2] = .ok (.locoFnhi 1 2) ∧
    decodePacket .stationToDevice [0b11100100, 0b01010001, 1, 2, 3] = .ok (.locoFnstathi 1 2 3) :=
  ⟨rfl, rfl, rfl, rfl, rfl, rfl, rfl, rfl⟩

/-- R82: header `0x81` with a second byte other than 0, sub-opcode `0x28`, the station's `0x51` from a device. -/
theorem test_decode_unknown :
    decodePacket .stationToDevice [0x81, 0x01] = .ok (.unknown .stationToDevice [0x81, 0x01]) ∧
    decodePacket .deviceToStation [0xE4, 0x28, 0, 3, 0] = .ok (.unknown .deviceToStation [0xE4, 0x28, 0, 3, 0]) ∧
    decodePacket .deviceToStation [0xE4, 0x51, 0, 0, 0] = .ok (.unknown .deviceToStation [0xE4, 0x51, 0, 0, 0]) ∧
    decodePacket .stationToDevice [0x61, 0x03] = .ok (.unknown .stationToDevice [0x61, 0x03]) := ⟨rfl, rfl, rfl, rfl⟩

/-- A packet whose length is not the declared one is refused by name. -/
theorem test_decode_refuses_misframed : decodePacket .deviceToStation [0x99, 0x01] = .error .misframed := rfl

/-- The host adaptor (R42): `0x01, 0x61` is the symbol `0x161`; a first byte above 1 is flagged. -/
theorem test_transport :
    transportValue 0x01 0x61 = 0x161 ∧ transportError 0x01 = false ∧ transportError 0x02 = true := by decide

/-! ### Single steps: symbols -/

/-- The sample of token `k` of a stream (R89): times `[10k, 10k + 9]`, error flag clear, the toggle as given. -/
def tok (k : Nat) (v : Symbol) (show_ : Bool) : Ports := ⟨false, true, false, v, 10 * k, 10 * k + 9, show_⟩

/-- The event a step drives, `none` where it stops too. -/
def evtOf : Outcome → Option Event
  | .next t => t.evt
  | .fault _ => none
  | .refused _ => none

/-- The registers but `BUF`, in the order of the tables of spec/95_test_vectors.md. -/
structure Regs where
  asm : Asm
  swcb : Bool
  rem : BitVec 5
  len : BitVec 5
  addr : BitVec 5
  start : Config.Time
  deriving DecidableEq, Repr

/-- The registers a step leaves. -/
def regsOf : Outcome → Option Regs
  | .next t => some ⟨t.asm, t.swcb, t.rem, t.len, t.addr, t.start⟩
  | .fault _ => none
  | .refused _ => none

/-- The reset state with one cycle to come. -/
def fresh (p : Ports) : State := { State.reset with inputs := [p] }

/-- After `D:52 D:03` from reset: the start state of the vectors SC21 to SC26. -/
def midPacket (p : Ports) : State :=
  { State.reset with asm := .collecting, rem := 2, len := 2, buf := [(0, 0x52), (1, 0x03)], inputs := [p] }

/-- After `C:61`: the end state of Example 1. -/
def called (p : Ports) : State :=
  { State.reset with addr := 1, asm := .awaitingHeader, swcb := true, inputs := [p] }

/-- SC3 and SC23. -/
theorem test_step_callRqack :
    evtOf (step (fresh (tok 0 0x183 true))) = some ⟨.requestAcknowledgment 3, 0, 9⟩ ∧
    evtOf (step (midPacket (tok 2 0x101 true))) = some ⟨.requestAcknowledgment 1, 20, 29⟩ ∧
    regsOf (step (midPacket (tok 2 0x101 true))) = some ⟨.collecting, false, 2, 2, 1, 0⟩ := by decide

/-- SC7 and SC24. -/
theorem test_step_callFb :
    evtOf (step (fresh (tok 0 0x1A1 false))) = some ⟨.callbyte, 0, 9⟩ ∧
    regsOf (step (midPacket (tok 2 0x121 true))) = some ⟨.collecting, false, 2, 2, 1, 0⟩ := by decide

/-- SC9, SC10, SC22. -/
theorem test_step_callInq :
    evtOf (step (fresh (tok 0 0x15F true))) = some ⟨.normalInquiry 31, 0, 9⟩ ∧
    evtOf (step (fresh (tok 0 0x15F false))) = none ∧
    regsOf (step (midPacket (tok 2 0x141 false))) = some ⟨.collecting, false, 2, 2, 1, 0⟩ := by decide

/-- SC14 and SC25. -/
theorem test_step_callBa :
    regsOf (step (fresh (tok 0 0x1E1 true))) = some ⟨.awaitingHeader, true, 0, 0, 1, 0⟩ ∧
    regsOf (step (midPacket (tok 2 0x161 true))) = some ⟨.awaitingHeader, true, 0, 0, 1, 20⟩ ∧
    evtOf (step (midPacket (tok 2 0x161 true))) = none := by decide

/-- SC26: an error-flagged call byte in mid-packet changes nothing. -/
theorem test_step_skips_flagged_input :
    regsOf (step (midPacket { tok 2 0x105 true with symErr := true })) = some ⟨.collecting, false, 2, 2, 0, 0⟩ ∧
    evtOf (step (midPacket { tok 2 0x105 true with symErr := true })) = none := by decide

/-- SC20: header `0xFF` in `Idle` gives the longest packet. -/
theorem test_step_dataHdr0 :
    regsOf (step (fresh (tok 3 0x0FF true))) = some ⟨.collecting, false, 16, 1, 0, 30⟩ := by decide

/-- Example 2, first half: `D:61` after `C:61`; `START` is kept. -/
theorem test_step_dataHdr1 :
    regsOf (step (called (tok 1 0x061 true))) = some ⟨.collecting, true, 2, 1, 1, 0⟩ := by decide

/-- PA7: `D:05` after `D:52 D:03`. -/
theorem test_step_dataBody :
    regsOf (step (midPacket (tok 2 0x005 true))) = some ⟨.collecting, false, 1, 3, 0, 0⟩ ∧
    evtOf (step (midPacket (tok 2 0x005 true))) = none := by decide

/-- Example 4: the checksum `D:54` after `D:52 D:03 D:05`. -/
theorem test_step_dataLast :
    let s := (midPacket (tok 3 0x054 true)).beforeChecksum .deviceToStation [0x52, 0x03, 0x05]
    let t := { s with inputs := [tok 3 0x054 true] }
    evtOf (step t) = some ⟨.accessoryDecoderOperationRequest 14 .two .deactivate, 0, 39⟩ ∧
    regsOf (step t) = some ⟨.idle, false, 0, 0, 0, 0⟩ := by decide

/-- R260: a cycle with `rst` high takes no symbol. -/
theorem test_step_reset :
    regsOf (step (midPacket { tok 2 0x161 true with rst := true })) = some ⟨.idle, false, 0, 0, 0, 0⟩ := by decide

/-! ### Single steps: packets -/

/-- The event of the step that takes the checksum of a packet opened at time 0 and closed at time 59. -/
def packetEvent (dir : Dir) (payload : List Byte) : Option Event :=
  evtOf (step { State.reset.beforeChecksum dir payload with inputs := [tok 5 0x0AA true] })

/-- R145 to R149. -/
theorem test_step_broadcasts :
    packetEvent .stationToDevice [0x61, 0x01] = some ⟨.normalOperationResumed, 0, 59⟩ ∧
    packetEvent .stationToDevice [0x61, 0x00] = some ⟨.trackPowerOff, 0, 59⟩ ∧
    packetEvent .stationToDevice [0x61, 0x08] = some ⟨.shortCircuit, 0, 59⟩ ∧
    packetEvent .stationToDevice [0x81, 0x00] = some ⟨.emergencyStop, 0, 59⟩ ∧
    packetEvent .stationToDevice [0x61, 0x02] = some ⟨.serviceModeEntry, 0, 59⟩ := by decide

/-- ST1 to ST5. -/
theorem test_step_requests :
    packetEvent .deviceToStation [0x20] = some ⟨.acknowledgmentResponse, 0, 59⟩ ∧
    packetEvent .deviceToStation [0x21, 0x21] = some ⟨.genericRequest .softwareVersionRequest, 0, 59⟩ ∧
    packetEvent .deviceToStation [0x21, 0x24] = some ⟨.genericRequest .statusRequest, 0, 59⟩ ∧
    packetEvent .deviceToStation [0x21, 0x80] = some ⟨.genericRequest .stopOperationsRequest, 0, 59⟩ ∧
    packetEvent .deviceToStation [0x21, 0x81] = some ⟨.genericRequest .resumeOperationsRequest, 0, 59⟩ := by decide

/-- AC3, AC13, AC22. -/
theorem test_step_accessory :
    packetEvent .deviceToStation [0x42, 0xFF, 0x81]
      = some ⟨.accessoryDecoderInformationRequest ⟨1022, 1023⟩, 0, 59⟩ ∧
    packetEvent .stationToDevice [0x42, 0x10, 0x8C]
      = some ⟨.accessoryDecoderInformationResponse 0b00 ⟨64, 65⟩ ⟨0b00, 0b11, true⟩, 0, 59⟩ ∧
    packetEvent .deviceToStation [0x52, 0x03, 0xF7]
      = some ⟨.accessoryDecoderOperationRequest 15 .two .deactivate, 0, 59⟩ := by decide

/-- AC8 and AC16. -/
theorem test_step_accessory_more :
    packetEvent .stationToDevice [0x42, 0x03, 0x19]
      = some ⟨.accessoryDecoderInformationResponse 0b00 ⟨14, 15⟩ ⟨0b01, 0b10, false⟩, 0, 59⟩ ∧
    packetEvent .deviceToStation [0x52, 0x03, 0x88]
      = some ⟨.accessoryDecoderOperationRequest 12 .one .activate, 0, 59⟩ := by decide

/-- The examples of R162 to R165. -/
theorem test_step_speed :
    packetEvent .deviceToStation [0xE4, 0x10, 0x00, 0x03, 0x05]
      = some ⟨.locomotiveSpeedAndDirectionOperation 3 .s14 false (.step 4), 0, 59⟩ ∧
    packetEvent .deviceToStation [0xE4, 0x11, 0x00, 0x03, 0x80]
      = some ⟨.locomotiveSpeedAndDirectionOperation 3 .s27 true (.step 0), 0, 59⟩ ∧
    packetEvent .deviceToStation [0xE4, 0x12, 0xC1, 0x23, 0x01]
      = some ⟨.locomotiveSpeedAndDirectionOperation 291 .s28 false .emergencyStop, 0, 59⟩ ∧
    packetEvent .deviceToStation [0xE4, 0x13, 0x00, 0x03, 0x85]
      = some ⟨.locomotiveSpeedAndDirectionOperation 3 .s128 true (.step 4), 0, 59⟩ := by decide

/-- The examples of R168 to R171. -/
theorem test_step_function_operations :
    packetEvent .deviceToStation [0xE4, 0x20, 0x00, 0x03, 0x13]
      = some ⟨.functionOperationInstructions 3 ⟨0x0000001F, 0x00000007⟩, 0, 59⟩ ∧
    packetEvent .deviceToStation [0xE4, 0x21, 0x00, 0x03, 0x09]
      = some ⟨.functionOperationInstructions 3 ⟨0x000001E0, 0x00000120⟩, 0, 59⟩ ∧
    packetEvent .deviceToStation [0xE4, 0x22, 0x00, 0x03, 0xF6]
      = some ⟨.functionOperationInstructions 3 ⟨0x00001E00, 0x00000C00⟩, 0, 59⟩ ∧
    packetEvent .deviceToStation [0xE4, 0x23, 0x00, 0x03, 0x81]
      = some ⟨.functionOperationInstructions 3 ⟨0x001FE000, 0x00102000⟩, 0, 59⟩ := by decide

/-- The examples of R172 to R176. -/
theorem test_step_function_states :
    packetEvent .deviceToStation [0xE4, 0x24, 0x00, 0x03, 0x10]
      = some ⟨.setFunctionState 3 ⟨0x0000001F, 0x00000001⟩, 0, 59⟩ ∧
    packetEvent .deviceToStation [0xE4, 0x25, 0x00, 0x03, 0x0F]
      = some ⟨.setFunctionState 3 ⟨0x000001E0, 0x000001E0⟩, 0, 59⟩ ∧
    packetEvent .deviceToStation [0xE4, 0x26, 0x00, 0x03, 0x01]
      = some ⟨.setFunctionState 3 ⟨0x00001E00, 0x00000200⟩, 0, 59⟩ ∧
    packetEvent .deviceToStation [0xE4, 0x27, 0x00, 0x03, 0xFF]
      = some ⟨.setFunctionState 3 ⟨0x001FE000, 0x001FE000⟩, 0, 59⟩ ∧
    packetEvent .deviceToStation [0xE4, 0x2C, 0x00, 0x03, 0x80]
      = some ⟨.setFunctionState 3 ⟨0x1FE00000, 0x10000000⟩, 0, 59⟩ := by decide

/-- The examples of R177 to R179. -/
theorem test_step_function_status :
    packetEvent .stationToDevice [0xE3, 0x50, 0x11, 0x81]
      = some ⟨.functionStatusResponse ⟨0x00001FFF, 0x00001023⟩, 0, 59⟩ ∧
    packetEvent .stationToDevice [0xE3, 0x52, 0x01, 0x80]
      = some ⟨.functionStateHighResponse ⟨0x1FFFE000, 0x10002000⟩, 0, 59⟩ ∧
    packetEvent .stationToDevice [0xE4, 0x51, 0xFF, 0x00, 0x00]
      = some ⟨.functionStatusHighResponse ⟨0x1FFFE000, 0x001FE000⟩, 0, 59⟩ := by decide

/-- ST6 to ST8, ST11, ST27. -/
theorem test_step_station :
    packetEvent .stationToDevice [0x61, 0x80] = some ⟨.transferError, 0, 59⟩ ∧
    packetEvent .stationToDevice [0x61, 0x81] = some ⟨.commandStationBusy, 0, 59⟩ ∧
    packetEvent .stationToDevice [0x61, 0x82] = some ⟨.instructionNotSupported, 0, 59⟩ ∧
    packetEvent .stationToDevice [0x62, 0x22, 0x41]
      = some ⟨.status ⟨false, true, false, .manual, false, true⟩, 0, 59⟩ ∧
    packetEvent .stationToDevice [0x63, 0x21, 0x36, 0x00] = some ⟨.softwareVersion ⟨3, 6⟩ 0x00, 0, 59⟩ := by decide

/-- ST20, ST22, ST23, ST24: one flag of the station status each. -/
theorem test_step_status_flags :
    packetEvent .stationToDevice [0x62, 0x22, 0x80]
      = some ⟨.status ⟨true, false, false, .manual, false, false⟩, 0, 59⟩ ∧
    packetEvent .stationToDevice [0x62, 0x22, 0x08]
      = some ⟨.status ⟨false, false, true, .manual, false, false⟩, 0, 59⟩ ∧
    packetEvent .stationToDevice [0x62, 0x22, 0x04]
      = some ⟨.status ⟨false, false, false, .automatic, false, false⟩, 0, 59⟩ ∧
    packetEvent .stationToDevice [0x62, 0x22, 0x02]
      = some ⟨.status ⟨false, false, false, .manual, true, false⟩, 0, 59⟩ := by decide

/-- PA3, ST9 and the sixteen bytes of PA4. -/
theorem test_step_unknown :
    packetEvent .stationToDevice [0x20] = some ⟨.unknown, 0, 59⟩ ∧
    packetEvent .stationToDevice [0x62, 0x21, 0x00] = some ⟨.unknown, 0, 59⟩ ∧
    packetEvent .deviceToStation [0x0F, 1, 2, 3, 4, 5, 6, 7, 8, 9, 10, 11, 12, 13, 14, 15]
      = some ⟨.unknown, 0, 59⟩ := by decide

/-! ### Witnesses: for each statement with hypotheses, operands and states that meet them -/

/-- The longest packet, sixteen bytes, one symbol before its checksum (PA5). -/
def fullPayload : List Byte := [0x0F, 1, 2, 3, 4, 5, 6, 7, 8, 9, 10, 11, 12, 13, 14, 15]

/-- PA5's end state, with one cycle to come. -/
def fullPacket (p : Ports) : State := { State.reset.beforeChecksum .deviceToStation fullPayload with inputs := [p] }

/-- `[0x61, 0x00]` after `C:61`, one symbol before its checksum (Example 2). -/
def powerOff (p : Ports) : State :=
  { State.reset.beforeChecksum .stationToDevice [0x61, 0x00] with addr := 1, inputs := [p] }

theorem witness_safe_states :
    (fresh Ports.low).Safe ∧ (called Ports.low).Safe ∧ (midPacket Ports.low).Safe ∧ (fullPacket Ports.low).Safe ∧ (powerOff Ports.low).Safe :=
  ⟨⟨rfl, rfl, rfl⟩, ⟨rfl, rfl, rfl⟩, ⟨rfl, rfl, rfl⟩, ⟨rfl, rfl, rfl⟩, ⟨rfl, rfl, rfl⟩⟩

theorem witness_DecodeOfEncodeIsTheInstruction :
    (Instr.locoSpd128 0xFF 0xFF 0xFF).wellFormed = true ∧ (Instr.dataLast 0).wellFormed = true ∧
    (Instr.unknown .deviceToStation fullPayload).wellFormed = true := ⟨rfl, rfl, rfl⟩

theorem witness_EncodeOfDecodeIsTheCode :
    decode (.symbol 0x1FF) = .ok (.callBa 1 31) ∧ decode (d2s [0x20]) = .ok .ackResp ∧
    decode (d2s fullPayload) = .ok (.unknown .deviceToStation fullPayload) := ⟨rfl, rfl, rfl⟩

/-- The hypothesis of `EveryFramedPacketIsDispatched` and `LookupOrderSelectsTheMatchingRow`, shortest and longest. -/
theorem witness_EveryFramedPacketIsDispatched : framed [0x20] = true ∧ framed fullPayload = true := ⟨rfl, rfl⟩

theorem witness_SymbolPatternsSelectTheOperation :
    ((0x19F : Symbol) &&& 0x160 = 0x100 ∧ (0x1BF : Symbol) &&& 0x160 = 0x120 ∧ (0x1DF : Symbol) &&& 0x160 = 0x140 ∧
      (0x1FF : Symbol) &&& 0x160 = 0x160 ∧ (0x0FF : Symbol) &&& 0x100 = 0x000) ∧
    ({ tok 0 0x1FF true with symErr := true } : Ports).symErr = true := by decide

theorem witness_StepRunsTheDecodedInstruction :
    (midPacket (tok 2 0x161 true)).inputs = tok 2 0x161 true :: [] ∧ (tok 2 0x161 true).Presents 0x161 ∧
    (midPacket (tok 2 0x161 true)).lawful = true ∧ decodeSymbol 0x161 = .callBa 0 1 :=
  ⟨rfl, ⟨rfl, rfl, rfl, rfl⟩, rfl, rfl⟩

/-- The hypotheses of `LastByteRunsTheDecodedPacket` and `LastByteCompletesThePacket`, at the largest `LEN` and at 2. -/
theorem witness_LastByteRunsTheDecodedPacket :
    ((fullPacket Ports.low).asm = .collecting ∧ (fullPacket Ports.low).rem = 1 ∧ (fullPacket Ports.low).len.toNat ≤ 16 ∧
      (fullPacket Ports.low).buf.readBelow (fullPacket Ports.low).len.toNat = .ok fullPayload ∧ framed fullPayload = true ∧
      decodePacket (dirOfSwcb (fullPacket Ports.low).swcb) fullPayload = .ok (.unknown .deviceToStation fullPayload)) ∧
    (powerOff Ports.low).asm = .collecting ∧ (powerOff Ports.low).rem = 1 ∧ (powerOff Ports.low).len.toNat ≤ 16 ∧
      (powerOff Ports.low).buf.readBelow (powerOff Ports.low).len.toNat = .ok [0x61, 0x00] ∧ framed [0x61, 0x00] = true ∧
      decodePacket (dirOfSwcb (powerOff Ports.low).swcb) [0x61, 0x00] = .ok .bcPwroff :=
  ⟨⟨rfl, rfl, by decide, rfl, rfl, rfl⟩, rfl, rfl, by decide, rfl, rfl, rfl⟩

theorem witness_PresentedPacketRunsNext :
    (Instr.staVersion 0x36 0).wellFormed = true ∧
      packetBody (.staVersion 0x36 0) = some (.softwareVersion ⟨3, 6⟩ 0) ∧
    (Instr.unknown .deviceToStation fullPayload).wellFormed = true ∧
      packetBody (.unknown .deviceToStation fullPayload) = some .unknown := ⟨rfl, rfl, rfl, rfl⟩

theorem witness_ResetCycleResets :
    (midPacket { tok 2 0x161 true with rst := true }).inputs = { tok 2 0x161 true with rst := true } :: [] ∧
    ({ tok 2 0x161 true with rst := true } : Ports).rst = true := ⟨rfl, rfl⟩

theorem witness_CycleWithoutSymbolChangesNothing :
    ((midPacket Ports.low).inputs = Ports.low :: [] ∧ Ports.low.rst = false ∧ Ports.low.symValid = false) ∧
    State.reset.inputs = [] := ⟨⟨rfl, rfl, rfl⟩, rfl⟩

theorem witness_FlaggedInputIsSkipped :
    let p : Ports := { tok 2 0x105 true with symErr := true }
    (midPacket p).inputs = p :: [] ∧ p.rst = false ∧ p.symValid = true ∧ p.symErr = true ∧
      (midPacket p).lawful = true := ⟨rfl, rfl, rfl, rfl, rfl⟩

theorem witness_SymbolOutsideTheInvariantIsRefused :
    let s : State := { midPacket (tok 2 0x005 true) with rem := 0 }
    s.inputs = tok 2 0x005 true :: [] ∧ (tok 2 0x005 true).rst = false ∧ (tok 2 0x005 true).symValid = true ∧
      s.lawful = false := ⟨rfl, rfl, rfl, rfl⟩

theorem witness_DataInIdleIsABareHeader : (fresh Ports.low).asm = .idle := rfl

theorem witness_DataInAwaitingHeaderIsTheHeader : (called Ports.low).asm = .awaitingHeader := rfl

/-- At `REM = 2`, the least; at `REM = 16`, the largest; at `LEN = 16`, the largest (no reachable state). -/
theorem witness_DataInCollectingIsAppended :
    ((midPacket Ports.low).asm = .collecting ∧ 1 < (midPacket Ports.low).rem.toNat ∧ (midPacket Ports.low).len.toNat ≤ 16) ∧
    (let s : State := { midPacket Ports.low with rem := 16, len := 1, buf := [(0, 0xFF)] }
     s.asm = .collecting ∧ 1 < s.rem.toNat ∧ s.len.toNat ≤ 16) ∧
    (let s : State := { fullPacket Ports.low with rem := 2 }
     s.asm = .collecting ∧ 1 < s.rem.toNat ∧ s.len.toNat ≤ 16) :=
  ⟨⟨rfl, by decide, by decide⟩, ⟨rfl, by decide, by decide⟩, ⟨rfl, by decide, by decide⟩⟩

/-- For each of the four data operations a state in which it answers. -/
theorem witness_UnwrittenStateIsKept :
    (∃ t, exec (.dataHdr0 0xFF) (fresh Ports.low) = .next t) ∧ (∃ t, exec (.dataHdr1 0x61) (called Ports.low) = .next t) ∧
    (∃ t, exec (.dataBody 0x05) (midPacket Ports.low) = .next t) ∧
    (∃ t, exec (.dataLast 0xAA) (fullPacket Ports.low) = .next t) := ⟨⟨_, rfl⟩, ⟨_, rfl⟩, ⟨_, rfl⟩, ⟨_, rfl⟩⟩

/-- A safe state for each clause. -/
theorem witness_DataGoesToTheSelectedSubOperation :
    ((fresh Ports.low).Safe ∧ (fresh Ports.low).asm = .idle) ∧ ((called Ports.low).Safe ∧ (called Ports.low).asm = .awaitingHeader) ∧
    ((midPacket Ports.low).Safe ∧ (midPacket Ports.low).asm = .collecting ∧ 1 < (midPacket Ports.low).rem.toNat) ∧
    ((fullPacket Ports.low).Safe ∧ (fullPacket Ports.low).asm = .collecting ∧ (fullPacket Ports.low).rem.toNat = 1) :=
  ⟨⟨⟨rfl, rfl, rfl⟩, rfl⟩, ⟨⟨rfl, rfl, rfl⟩, rfl⟩, ⟨⟨rfl, rfl, rfl⟩, rfl, by decide⟩, ⟨⟨rfl, rfl, rfl⟩, rfl, rfl⟩⟩

/-- Each clause's state, the boundary values of `REM` among them. -/
theorem witness_SubOperationElsewhereIsRefused :
    (called Ports.low).asm ≠ .idle ∧ (fresh Ports.low).asm ≠ .awaitingHeader ∧
    ¬((fullPacket Ports.low).asm = .collecting ∧ 1 < (fullPacket Ports.low).rem.toNat) ∧
    ¬((midPacket Ports.low).asm = .collecting ∧ (midPacket Ports.low).rem.toNat = 1) := by
  refine ⟨?_, ?_, ?_, ?_⟩ <;> simp [called, fresh, State.reset, fullPacket, midPacket, State.beforeChecksum]

theorem witness_BroadcastsEmitTheirEvents : ((0x61 : Byte) = 0x61 ∨ (0x61 : Byte) = 0x81) ∧ (0x01 : Byte) ≠ 0x00 := by
  decide

/-- A header in no table, and one whose decoder declines. -/
theorem witness_UnknownPacketsAreReported :
    (framed fullPayload = true ∧ ∀ r ∈ dwRows, r.fits (dispatchWord .deviceToStation fullPayload) = false) ∧
    (framed [0x61, 0x03] = true ∧ ∀ r ∈ dwRows, r.fits (dispatchWord .stationToDevice [0x61, 0x03]) = false) := by
  decide

/-- For each clause, sub-opcodes beside the ones its decoder takes. -/
theorem witness_DecodersDeclineOtherSubOpcodes :
    (([] : List Byte).length = 0 ∧ (0x22 : Byte) ∉ ([0x21, 0x24, 0x80, 0x81] : List Byte)) ∧
    (([0, 3, 0] : List Byte).length = 3 ∧ (0x28 : Byte) ∉
      ([0x10, 0x11, 0x12, 0x13, 0x20, 0x21, 0x22, 0x23, 0x24, 0x25, 0x26, 0x27, 0x2C] : List Byte)) ∧
    (0x03 : Byte) ∉ ([0x00, 0x01, 0x02, 0x08, 0x80, 0x81, 0x82] : List Byte) ∧
    (([0] : List Byte).length = 1 ∧ (0x21 : Byte) ≠ 0x22) ∧
    (([0, 0] : List Byte).length = 2 ∧ (0x22 : Byte) ≠ 0x21 ∧ (0x51 : Byte) ≠ 0x50 ∧ (0x51 : Byte) ≠ 0x52) ∧
    (([0, 3, 0] : List Byte).length = 3 ∧ (0x50 : Byte) ≠ 0x51) := by decide

/-- For each clause on the raw speed a byte at its boundary: `0x80`, `0x81`, `0x02`, `0xFF`. -/
theorem witness_SpeedOperationsReportAddressAndSpeed :
    (0x80 : Byte).toNat % 128 = 0 ∧ (0x81 : Byte).toNat % 128 = 1 ∧ 2 ≤ (0x02 : Byte).toNat % 128 ∧
    2 ≤ (0xFF : Byte).toNat % 128 := by decide

theorem witness_FunctionBitsStayUnderTheMask :
    packetBody (.locoFnstat 0xFF 0xFF) = some (.functionStatusResponse ⟨0x1FFF, 0x1FFF⟩) ∧
    (EventBody.functionStatusResponse ⟨0x1FFF, 0x1FFF⟩).functions? = some ⟨0x1FFF, 0x1FFF⟩ := by decide

/-- The conditions of `RequestsAreReported` and `StationErrorsAreEvents` on other sub-opcodes. -/
theorem witness_StationErrorsAreEvents :
    (0x7F : Byte) ∉ ([0x00, 0x01, 0x02, 0x08, 0x80, 0x81, 0x82] : List Byte) ∧
    (0x7F : Byte) ∉ ([0x21, 0x24, 0x80, 0x81] : List Byte) := by decide

/-- Operands that differ in the unread bits alone, and a state in which two checksums both complete a packet. -/
theorem witness_UnreadBitsAffectNoEvent :
    ((0xC1 : Byte) &&& 0x3F = 0x01 &&& 0x3F ∧ (0xF3 : Byte) &&& 0x1F = 0x13 &&& 0x1F ∧
      (0xF6 : Byte) &&& 0x0F = 0x06 &&& 0x0F ∧ (0xFF : Byte) &&& 0x01 = 0x01 &&& 0x01 ∧
      (0xFF : Byte) &&& 0xCF = 0xCF &&& 0xCF) ∧
    evtOf (exec (.dataLast 0x61) (powerOff Ports.low)) = some ⟨.trackPowerOff, 0, 0⟩ ∧
    evtOf (exec (.dataLast 0x62) (powerOff Ports.low)) = some ⟨.trackPowerOff, 0, 0⟩ := by decide

theorem witness_StepKeepsSafe :
    (fresh (tok 0 0x1FF true)).Safe ∧ ∃ t, step (fresh (tok 0 0x1FF true)) = .next t := ⟨⟨rfl, rfl, rfl⟩, _, rfl⟩

theorem witness_SafeStateNeverStops : (fullPacket (tok 16 0x0AA true)).Safe := ⟨rfl, rfl, rfl⟩

/-- One step from reset leads to a state of each clause. -/
theorem witness_ReachableStatesMeetTheInvariant :
    (regsOf (core.run 1 { State.reset with inputs := [tok 0 0x160 true] })).map (·.asm) = some .awaitingHeader ∧
    (regsOf (core.run 1 { State.reset with inputs := [tok 0 0x0FF true] })).map (·.asm) = some .collecting ∧
    (regsOf (core.run 1 { State.reset with inputs := [tok 0 0x100 true] })).map (·.asm) = some .idle := ⟨rfl, rfl, rfl⟩

/-- The hypotheses of `AddrIsTheLastCallBytesAddress` and `CallKindsComeFromCallBytes`: values 255 and 256, and a step
whose event has a call kind. -/
theorem witness_AddrIsTheLastCallBytesAddress :
    ((fresh (tok 0 0x100 true)).inputs = tok 0 0x100 true :: [] ∧ (tok 0 0x100 true).rst = false ∧
      256 ≤ (tok 0 0x100 true).symValue.toNat ∧
      ∃ t, step (fresh (tok 0 0x100 true)) = .next t ∧ t.evt = some ⟨.requestAcknowledgment 0, 0, 9⟩ ∧
        (EventBody.requestAcknowledgment 0).isCallKind = true) ∧
    (fresh (tok 0 0x0FF true)).inputs = tok 0 0x0FF true :: [] ∧ (tok 0 0x0FF true).symValue.toNat < 256 ∧
      ∃ t, step (fresh (tok 0 0x0FF true)) = .next t :=
  ⟨⟨rfl, rfl, by decide, _, rfl, rfl, rfl⟩, rfl, by decide, _, rfl⟩

/-- Both clauses of `BufIsWrittenAtLenAlone`. -/
theorem witness_BufIsWrittenAtLenAlone :
    ((midPacket (tok 2 0x005 true)).Safe ∧ (tok 2 0x005 true).PresentsData ∧
      ∃ t, step (midPacket (tok 2 0x005 true)) = .next t) ∧
    ((midPacket (tok 2 0x105 true)).Safe ∧ ¬ (tok 2 0x105 true).PresentsData ∧
      ∃ t, step (midPacket (tok 2 0x105 true)) = .next t) :=
  ⟨⟨⟨rfl, rfl, rfl⟩, ⟨rfl, rfl, rfl, rfl⟩, _, rfl⟩, ⟨rfl, rfl, rfl⟩, fun h => Bool.noConfusion h.2.2.2, _, rfl⟩

/-- A data symbol, which is no inquiry, with the toggle at 1 and at 0. -/
theorem witness_ToggleWithholdsTheEventOnly :
    (∃ t, step { midPacket Ports.low with inputs := tok 2 0x005 true :: [] } = .next t) ∧
    (∃ t, step { midPacket Ports.low with inputs := { tok 2 0x005 true with cfgShowInquiry := false } :: [] } = .next t) ∧
    ∀ b a, decodeSymbol (tok 2 0x005 true).symValue ≠ .callInq b a :=
  ⟨⟨_, rfl⟩, ⟨_, rfl⟩, fun _ _ h => by cases h⟩

theorem witness_ChecksumIsNeverRead : ∃ t, exec (.dataLast 0x61) (powerOff Ports.low) = .next t := ⟨_, rfl⟩

/-- Two states that differ in a stale byte, in `ADDR` and in `START` while idle. -/
theorem witness_UnspecifiedStateNeverShows :
    let s := fresh (tok 0 0x052 true)
    let s' : State := { s with addr := 7, start := 99, buf := [(0, 0xE4), (3, 0x11)] }
    s.Safe ∧ s'.Safe ∧ s.Agrees s' :=
  ⟨⟨rfl, rfl, rfl⟩, ⟨rfl, rfl, rfl⟩, rfl, rfl, rfl, rfl, rfl, fun h => absurd rfl h, fun _ hi => absurd hi (Nat.not_lt_zero _)⟩

/-- Example 4, and the shortest packet. -/
theorem witness_DevicePacketIsReassembled :
    let body := [tok 1 0x003 true, tok 2 0x005 true]
    let s : State := { State.reset with inputs := tok 0 0x052 true :: (body ++ tok 3 0x054 true :: []) }
    let z : State := { State.reset with inputs := tok 0 0x020 true :: ([] ++ tok 1 0x020 true :: []) }
    (s.Safe ∧ s.asm = .idle ∧ (tok 0 0x052 true).PresentsData ∧ (tok 3 0x054 true).PresentsData ∧
      (∀ p ∈ body, p.PresentsData) ∧ body.length = headerCount (lowByte (tok 0 0x052 true).symValue)) ∧
    z.Safe ∧ z.asm = .idle ∧ (tok 0 0x020 true).PresentsData ∧ (tok 1 0x020 true).PresentsData ∧
      0 = headerCount (lowByte (tok 0 0x020 true).symValue) := by
  refine ⟨⟨⟨rfl, rfl, rfl⟩, rfl, ⟨rfl, rfl, rfl, rfl⟩, ⟨rfl, rfl, rfl, rfl⟩, ?_, rfl⟩,
    ⟨rfl, rfl, rfl⟩, rfl, ⟨rfl, rfl, rfl, rfl⟩, ⟨rfl, rfl, rfl, rfl⟩, rfl⟩
  simp [Ports.PresentsData, tok, isCallByte]

/-- PA9: `C:61 D:61 D:00 D:61` while another packet is in progress. -/
theorem witness_StationPacketIsReassembled :
    let body := [tok 4 0x000 true]
    let s : State := { midPacket Ports.low with
      inputs := tok 2 0x161 true :: tok 3 0x061 true :: (body ++ tok 5 0x061 true :: []) }
    s.Safe ∧ (tok 2 0x161 true).Presents (callSymbol 0 0b11 1) ∧ (tok 3 0x061 true).PresentsData ∧
      (tok 5 0x061 true).PresentsData ∧ (∀ p ∈ body, p.PresentsData) ∧
      body.length = headerCount (lowByte (tok 3 0x061 true).symValue) := by
  refine ⟨⟨rfl, rfl, rfl⟩, ⟨rfl, rfl, rfl, rfl⟩, ⟨rfl, rfl, rfl, rfl⟩, ⟨rfl, rfl, rfl, rfl⟩, ?_, rfl⟩
  simp [Ports.PresentsData, tok, isCallByte]

end Sys2Proof.Tests
end

section
/-! PROOFS. The step on a presented symbol (spec/00_scope.md R11, spec/40_symbol_classifier.md R100, R101). -/

namespace Sys2Proof.Machine

/-- Sampling the ports writes no register the invariant of R29 reads. -/
@[simp] theorem State.latch_lawful (s : State) (p : Ports) (rest : List Ports) :
    (s.latch p rest).lawful = s.lawful := State.lawful_congr rfl rfl rfl rfl rfl

/-- A step on a presented symbol, in the order of its tests: the invariant (R11), the error flag (R101), then the
decoded instruction (R100). -/
theorem step_symbol {s : State} {p : Ports} {rest : List Ports} (h : s.inputs = p :: rest) (hr : p.rst = false)
    (hv : p.symValid = true) :
    step s = if s.lawful = false then .refused .outsideInvariant
      else if p.symErr = true then .next (s.latch p rest)
      else exec (decodeSymbol p.symValue) (s.latch p rest) := by
  simp only [step, fetch_symbol h hr hv, fetchSymbol_eq, State.latch_lawful]
  cases s.lawful with
  | false => rfl
  | true => cases p.symErr <;> rfl

/-- Every one of the 512 symbols is a well-formed instruction: none decodes to `UNKNOWN`, whose payload alone could fail. -/
theorem decodeSymbol_wellFormed (v : Symbol) : (decodeSymbol v).wellFormed = true := by
  obtain ⟨-, hd⟩ | ⟨-, hd | hd | hd | hd⟩ := decodeSymbol_cases v <;> rw [hd] <;> rfl

/-- Settles O9: of the tests of `step_symbol`, a lawful state and an unflagged symbol leave the decoded instruction. -/
theorem stepRunsTheDecodedInstruction : Obligations.StepRunsTheDecodedInstruction := by
  rintro s p rest v i hin ⟨hrst, hvalid, herr, hval⟩ hlaw hdec
  subst hval hdec
  refine ⟨decodeSymbol_wellFormed _, ?_⟩
  have hstep : step s = exec (decodeSymbol p.symValue) (s.latch p rest) := by
    simp [step_symbol hin hrst hvalid, hlaw, herr]
  exact hstep

/-- Settles O16: the invariant is the first test of `step_symbol`, so neither the flag nor the symbol is read. -/
theorem symbolOutsideTheInvariantIsRefused : Obligations.SymbolOutsideTheInvariantIsRefused := by
  intro s p rest hin hrst hvalid hlaw
  rw [step_symbol hin hrst hvalid, if_pos hlaw]

end Sys2Proof.Machine
end

section
/-! PROOFS. What an operation does when it answers: the four sub-operations of `DATA` (spec/41_packet_assembler.md R120 to
R124), the hand-over between them (R108), and the symbols (R100). Each is said once, as an equation or an equivalence. -/

namespace Sys2Proof.Machine

/-! ### The states the data operations lead to -/

/-- What `DATA.HDR0` leaves (R120). -/
def State.bareHeader (s : State) (b : Byte) : State :=
  (((s.setBuf (s.buf.put 0 b)).openBare s.port.symStart).startCollecting b).emitNone

/-- What `DATA.HDR1` leaves (R121). -/
def State.calledHeader (s : State) (b : Byte) : State :=
  ((s.setBuf (s.buf.put 0 b)).startCollecting b).emitNone

/-- What `DATA.BODY` leaves (R122). -/
def State.appendByte (s : State) (b : Byte) : State :=
  (s.setBuf (s.buf.put s.len.toNat b)).advance.emitNone

/-- What `DATA.LAST` leaves, the packet's body being `body` (R124). -/
def State.completePacket (s : State) (b : Byte) (body : EventBody) : State :=
  ((s.setBuf (s.buf.put s.len.toNat b)).emitPacket body).closePacket

/-! ### When each of them answers -/

theorem exec_dataHdr0_iff {b : Byte} {s t : State} :
    exec (.dataHdr0 b) s = .next t ↔ s.asm = .idle ∧ s.bareHeader b = t := by
  change execDataHdr0 b s = .next t ↔ _
  cases h : s.asm <;> simp [execDataHdr0, h, storeThen_eq, State.bareHeader]

theorem exec_dataHdr1_iff {b : Byte} {s t : State} :
    exec (.dataHdr1 b) s = .next t ↔ s.asm = .awaitingHeader ∧ s.calledHeader b = t := by
  change execDataHdr1 b s = .next t ↔ _
  cases h : s.asm <;> simp [execDataHdr1, h, storeThen_eq, State.calledHeader]

theorem exec_dataBody_iff {b : Byte} {s t : State} :
    exec (.dataBody b) s = .next t ↔
      (s.asm = .collecting ∧ 1 < s.rem.toNat) ∧ s.len.toNat < 17 ∧ s.appendByte b = t := by
  change execDataBody b s = .next t ↔ _
  unfold execDataBody
  split
  · rw [storeThen_eq]
    split <;> simp [State.appendByte, *]
  · simp [*]

theorem exec_dataLast_iff {b : Byte} {s t : State} :
    exec (.dataLast b) s = .next t ↔
      (s.asm = .collecting ∧ s.rem.toNat = 1) ∧ s.len.toNat < 17 ∧
        ∃ payload body, s.buf.readBelow s.len.toNat = .ok payload ∧
          dispatch (dirOfSwcb s.swcb) payload = .ok body ∧ s.completePacket b body = t := by
  change execDataLast b s = .next t ↔ _
  unfold execDataLast
  constructor
  · intro h
    split at h
    next hsel =>
      split at h
      · cases h
      next packet hpacket =>
        obtain ⟨hread, hdir, hstart, hend⟩ := completedPacket_ok hpacket
        split at h
        · cases h
        next body hbody =>
          rw [storeThen_eq] at h
          split at h
          next hlen =>
            cases h
            exact ⟨hsel, hlen, packet.payload, body, hread, hdir ▸ hbody, by rw [hstart, hend]; rfl⟩
          · cases h
    · cases h
  · rintro ⟨hsel, hlen, payload, body, hread, hbody, rfl⟩
    simp only [if_pos hsel, completedPacket_eq hread, hbody, storeThen_eq, if_pos hlen]
    rfl

/-! ### `DATA` -/

/-- The four ways in which a data byte takes a state to the next (R108). -/
inductive DataEffect (b : Byte) (s : State) : State → Prop
  | bareHeader (hasm : s.asm = .idle) : DataEffect b s (s.bareHeader b)
  | calledHeader (hasm : s.asm = .awaitingHeader) : DataEffect b s (s.calledHeader b)
  | append (hasm : s.asm = .collecting) (hrem : 1 < s.rem.toNat) (hlen : s.len.toNat < 17) :
      DataEffect b s (s.appendByte b)
  | complete {payload : List Byte} {body : EventBody} (hasm : s.asm = .collecting) (hrem : s.rem.toNat = 1)
      (hlen : s.len.toNat < 17) (hread : s.buf.readBelow s.len.toNat = .ok payload)
      (hbody : dispatch (dirOfSwcb s.swcb) payload = .ok body) : DataEffect b s (s.completePacket b body)

/-- `DataEffect` is what `DATA` does: no case is missing and none is added. -/
theorem exec_data_iff {b : Byte} {s t : State} : exec (.data b) s = .next t ↔ DataEffect b s t := by
  rw [exec_data_eq]
  constructor
  · intro h
    split at h
    next hasm =>
      obtain ⟨-, rfl⟩ := exec_dataHdr0_iff.mp h
      exact .bareHeader hasm
    next hasm =>
      obtain ⟨-, rfl⟩ := exec_dataHdr1_iff.mp h
      exact .calledHeader hasm
    next hasm =>
      split at h
      next hrem =>
        obtain ⟨-, hlen, rfl⟩ := exec_dataBody_iff.mp h
        exact .append hasm hrem hlen
      · split at h
        next hrem =>
          obtain ⟨-, hlen, payload, body, hread, hbody, rfl⟩ := exec_dataLast_iff.mp h
          exact .complete hasm hrem hlen hread hbody
        · cases h
  · rintro (hasm | hasm | ⟨hasm, hrem, hlen⟩ | ⟨hasm, hrem, hlen, hread, hbody⟩)
    · simpa only [hasm] using exec_dataHdr0_iff.mpr ⟨hasm, rfl⟩
    · simpa only [hasm] using exec_dataHdr1_iff.mpr ⟨hasm, rfl⟩
    · simpa only [hasm, if_pos hrem] using exec_dataBody_iff.mpr ⟨⟨hasm, hrem⟩, hlen, rfl⟩
    · have hlast := (exec_dataLast_iff (b := b)).mpr ⟨⟨hasm, hrem⟩, hlen, _, _, hread, hbody, rfl⟩
      simpa [hasm, hrem] using hlast

/-! ### Symbols and cycles -/

/-- `CALL.INQ` with the toggle inside the event: whatever its value, the state is written alike (R103). -/
theorem exec_callInq_eq (bit7 : BitVec 1) (a : BitVec 5) (s : State) :
    exec (.callInq bit7 a) s = .next { s with
      addr := a
      evt := if s.port.cfgShowInquiry then some ⟨.normalInquiry a, s.port.symStart, s.port.symEnd⟩ else none } := by
  change execCallInq bit7 a s = _
  unfold execCallInq
  split <;> rfl

/-- A symbol does one of three things, the same in every state: it is a data byte; it opens a packet; or it writes `ADDR`
and drives what the ports alone determine, in which the toggle counts for an inquiry only (R100, R103 to R106). -/
theorem exec_decodeSymbol (v : Symbol) :
    (∀ s, exec (decodeSymbol v) s = exec (.data (lowByte v)) s) ∨
    (∀ s, exec (decodeSymbol v) s =
      .next ((s.setAddr (addressOf (lowByte v))).openCalled s.port.symStart).emitNone) ∨
    ∃ e : Ports → Option Event,
      (∀ s, exec (decodeSymbol v) s = .next { s with addr := addressOf (lowByte v), evt := e s.port }) ∧
      ((∀ b a, decodeSymbol v ≠ .callInq b a) → ∀ p x, e { p with cfgShowInquiry := x } = e p) := by
  obtain ⟨-, hd⟩ | ⟨-, hd | hd | hd | hd⟩ := decodeSymbol_cases v
  · exact .inl fun s => by rw [hd]
  · exact .inr (.inr ⟨fun p => some ⟨.requestAcknowledgment (addressOf (lowByte v)), p.symStart, p.symEnd⟩,
      fun s => by rw [hd]; rfl, fun _ _ _ => rfl⟩)
  · exact .inr (.inr ⟨fun p => some ⟨.callbyte, p.symStart, p.symEnd⟩, fun s => by rw [hd]; rfl, fun _ _ _ => rfl⟩)
  · refine .inr (.inr ⟨fun p => if p.cfgShowInquiry then
      some ⟨.normalInquiry (addressOf (lowByte v)), p.symStart, p.symEnd⟩ else none, fun s => ?_,
      fun hno => absurd hd (hno _ _)⟩)
    rw [hd, exec_callInq_eq]
  · exact .inr (.inl fun s => by rw [hd]; rfl)

theorem step_nil {s : State} (h : s.inputs = []) : step s = .next s.emitNone := by
  rw [step, fetch_nil h]

theorem step_rst {s : State} {p : Ports} {rest : List Ports} (h : s.inputs = p :: rest) (hr : p.rst = true) :
    step s = .next (s.latch p rest).resetCycle := by
  rw [step, fetch_rst h hr]

theorem step_quiet {s : State} {p : Ports} {rest : List Ports} (h : s.inputs = p :: rest) (hr : p.rst = false)
    (hv : p.symValid = false) : step s = .next (s.latch p rest) := by
  rw [step, fetch_quiet h hr hv]

theorem step_flagged {s : State} {p : Ports} {rest : List Ports} (h : s.inputs = p :: rest) (hr : p.rst = false)
    (hv : p.symValid = true) (hlaw : s.lawful = true) (he : p.symErr = true) :
    step s = .next (s.latch p rest) := by
  simp [step_symbol h hr hv, hlaw, he]

theorem step_taken {s : State} {p : Ports} {rest : List Ports} (h : s.inputs = p :: rest) (hr : p.rst = false)
    (hv : p.symValid = true) (hlaw : s.lawful = true) (he : p.symErr = false) :
    step s = exec (decodeSymbol p.symValue) (s.latch p rest) := by
  simp [step_symbol h hr hv, hlaw, he]

/-- Settles O14: the two cycles that present no symbol, by what `fetch` says of each. -/
theorem cycleWithoutSymbolChangesNothing : Obligations.CycleWithoutSymbolChangesNothing :=
  ⟨fun _ _ _ hin hrst hvalid => step_quiet hin hrst hvalid, fun _ hin => step_nil hin⟩

/-- Settles O13: each field as `State.reset` lists it. -/
theorem resetValues : Obligations.ResetValues := ⟨rfl, rfl, rfl, rfl, rfl⟩

/-- Settles O25: each operation's one write to `BUF` is a `put` at its own index, and neither `DATA.BODY` nor `DATA.LAST`
writes `START`. -/
theorem unwrittenStateIsKept : Obligations.UnwrittenStateIsKept := by
  refine ⟨fun bit7 a s => ⟨_, rfl, rfl⟩, fun b s t => ⟨?_, ?_⟩⟩
  · rintro (h | h) j hj
    · obtain ⟨-, rfl⟩ := exec_dataHdr0_iff.mp h
      exact Memory.read_put_other s.buf b hj
    · obtain ⟨-, rfl⟩ := exec_dataHdr1_iff.mp h
      exact Memory.read_put_other s.buf b hj
  · rintro (h | h)
    · obtain ⟨-, -, rfl⟩ := exec_dataBody_iff.mp h
      exact ⟨rfl, fun j hj => Memory.read_put_other s.buf b hj⟩
    · obtain ⟨-, -, payload, body, -, -, rfl⟩ := exec_dataLast_iff.mp h
      exact ⟨rfl, fun j hj => Memory.read_put_other s.buf b hj⟩

end Sys2Proof.Machine
end

section
/-! PROOFS. Every framed payload is dispatched (spec/42_dispatcher.md R140, R151, R235): each row of a table takes no more
data bytes than its header declares. -/

namespace Sys2Proof.Machine

/-- The data bytes after the header that an operation takes its operands from (R79). -/
def dataBytesRead : PktOp → Nat
  | .accInforeq | .accOpreq | .accInforesp | .staStatus => 2
  | .staVersion | .locoFnstat | .locoFnhi => 3
  | .locoSpd14 | .locoSpd27 | .locoSpd28 | .locoSpd128 => 4
  | .locoFnG1 | .locoFnG2 | .locoFnG3 | .locoFnG4 => 4
  | .locoFnstG1 | .locoFnstG2 | .locoFnstG3 | .locoFnstG4 | .locoFnstG5 | .locoFnstathi => 4
  | .bcResume | .bcPwroff | .bcShort | .bcEstop | .bcSvcmode => 0
  | .ackResp | .reqVersion | .reqStatus | .reqStop | .reqResume => 0
  | .errTransfer | .errBusy | .errNotsupp | .unknown => 0

theorem dataBytesRead_opcodeTable (dir : Dir) :
    ∀ r ∈ opcodeTable dir, dataBytesRead r.op ≤ headerCount r.header := by
  cases dir <;> decide

theorem dataBytesRead_bcastTable : ∀ r ∈ bcastTable, dataBytesRead r.op = 0 := by decide

theorem bcastLookup_mem {dir : Dir} {payload : List Byte} {op : PktOp} (h : bcastLookup dir payload = some op) :
    ∃ r ∈ bcastTable, r.op = op := by
  unfold bcastLookup at h
  split at h
  · obtain ⟨r, hr, hop⟩ := Option.map_eq_some_iff.mp h
    exact ⟨r, List.mem_of_find?_eq_some hr, hop⟩
  · cases h

theorem opcodeLookup_mem {table : List OpcodeRow} {h : Byte} {rest : List Byte} {op : PktOp}
    (hop : opcodeLookup table (h :: rest) = .found op) : ∃ r ∈ table, r.header = h ∧ r.op = op := by
  simp only [opcodeLookup] at hop
  split at hop
  · cases hop
  · split at hop
    next r hr =>
      have hmem : r ∈ rowsOfHeader table h := List.mem_of_find?_eq_some hr
      rw [rowsOfHeader, List.mem_filter, beq_iff_eq] at hmem
      exact ⟨r, hmem.1, hmem.2, by simpa using hop⟩
    · cases hop

/-- The selected operation takes no more data bytes than the header declares. -/
theorem dataBytesRead_selectOp (dir : Dir) (h : Byte) (rest : List Byte) :
    dataBytesRead (selectOp dir (h :: rest)) ≤ headerCount h := by
  unfold selectOp
  split
  next op hb =>
    obtain ⟨r, hr, rfl⟩ := bcastLookup_mem hb
    simp [dataBytesRead_bcastTable r hr]
  · split
    next op hop =>
      obtain ⟨r, hr, rfl, rfl⟩ := opcodeLookup_mem hop
      exact dataBytesRead_opcodeTable dir r hr
    · exact Nat.zero_le _
    · exact Nat.zero_le _

theorem withByte2_ok {rest : List Byte} (h : Byte) (f : Byte → Instr) (hlen : 2 ≤ rest.length) :
    ∃ x, withByte2 (h :: rest) f = .ok (f x) := by
  match rest, hlen with
  | _ :: x :: _, _ => exact ⟨x, rfl⟩

theorem withBytes12_ok {rest : List Byte} (h : Byte) (f : Byte → Byte → Instr) (hlen : 2 ≤ rest.length) :
    ∃ x y, withBytes12 (h :: rest) f = .ok (f x y) := by
  match rest, hlen with
  | x :: y :: _, _ => exact ⟨x, y, rfl⟩

theorem withBytes23_ok {rest : List Byte} (h : Byte) (f : Byte → Byte → Instr) (hlen : 3 ≤ rest.length) :
    ∃ x y, withBytes23 (h :: rest) f = .ok (f x y) := by
  match rest, hlen with
  | _ :: x :: y :: _, _ => exact ⟨x, y, rfl⟩

theorem withBytes234_ok {rest : List Byte} (h : Byte) (f : Byte → Byte → Byte → Instr) (hlen : 4 ≤ rest.length) :
    ∃ x y z, withBytes234 (h :: rest) f = .ok (f x y z) := by
  match rest, hlen with
  | _ :: x :: y :: z :: _, _ => exact ⟨x, y, z, rfl⟩

/-- With the data bytes an operation takes all there, it is an instruction that reports an event. -/
theorem instrOfOp_ok (op : PktOp) (dir : Dir) (h : Byte) {rest : List Byte} (hlen : dataBytesRead op ≤ rest.length) :
    ∃ i body, instrOfOp op dir (h :: rest) = .ok i ∧ packetBody i = some body := by
  cases op
  case accInforeq | accOpreq | accInforesp =>
    obtain ⟨x, y, hi⟩ := withBytes12_ok h _ hlen
    exact ⟨_, _, hi, rfl⟩
  case staStatus =>
    obtain ⟨x, hi⟩ := withByte2_ok h _ hlen
    exact ⟨_, _, hi, rfl⟩
  case staVersion | locoFnstat | locoFnhi =>
    obtain ⟨x, y, hi⟩ := withBytes23_ok h _ hlen
    exact ⟨_, _, hi, rfl⟩
  case locoSpd14 | locoSpd27 | locoSpd28 | locoSpd128 | locoFnG1 | locoFnG2 | locoFnG3 | locoFnG4 | locoFnstG1
      | locoFnstG2 | locoFnstG3 | locoFnstG4 | locoFnstG5 | locoFnstathi =>
    obtain ⟨x, y, z, hi⟩ := withBytes234_ok h _ hlen
    exact ⟨_, _, hi, rfl⟩
  all_goals exact ⟨_, _, rfl, rfl⟩

/-- A framed payload is dispatched: nothing in it is misframed or truncated. -/
theorem dispatch_of_framed (dir : Dir) {payload : List Byte} (hf : framed payload = true) :
    ∃ body, dispatch dir payload = .ok body := by
  cases payload with
  | nil => cases hf
  | cons h rest =>
    have hlen : rest.length = headerCount h := by simpa [framed_cons] using hf
    obtain ⟨i, body, hi, hbody⟩ :=
      instrOfOp_ok (selectOp dir (h :: rest)) dir h (hlen ▸ dataBytesRead_selectOp dir h rest)
    exact ⟨body, dispatch_of_decode (by rw [decodePacket, if_pos hf, hi]) hbody⟩

end Sys2Proof.Machine
end

section
/-! PROOFS. The invariant of the reachable states (spec/10_state.md R29): reset meets it, every step answers from it and
keeps it, so every run from reset does. -/

namespace Sys2Proof.Machine

/-! ### Safe states -/

theorem State.Safe.lawful {s : State} (hs : s.Safe) : s.lawful = true := hs.1

theorem State.Safe.buf_wf {s : State} (hs : s.Safe) : s.buf.wf = true := hs.2.1

/-- Safety reads the assembler registers and the buffer alone. -/
theorem State.Safe.congr {s t : State} (hs : s.Safe) (hasm : s.asm = t.asm) (hswcb : s.swcb = t.swcb)
    (hrem : s.rem = t.rem) (hlen : s.len = t.len) (hbuf : s.buf = t.buf) : t.Safe := by
  obtain ⟨hlaw, hwf, hheld⟩ := hs
  refine ⟨State.lawful_congr hasm hswcb hrem hlen hbuf ▸ hlaw, hbuf ▸ hwf, ?_⟩
  rwa [State.bytesHeld, ← hlen, ← hbuf]

theorem State.bytesHeld_of_len_zero {t : State} (hlen : t.len = 0) : t.bytesHeld = true := by
  simp [State.bytesHeld, hlen]

theorem State.safe_of_idle {t : State} (hasm : t.asm = .idle) (hswcb : t.swcb = false) (hrem : t.rem = 0)
    (hlen : t.len = 0) (hwf : t.buf.wf = true) : t.Safe :=
  ⟨(State.lawful_of_idle hasm).mpr ⟨hswcb, hrem, hlen⟩, hwf, State.bytesHeld_of_len_zero hlen⟩

theorem State.safe_of_awaitingHeader {t : State} (hasm : t.asm = .awaitingHeader) (hswcb : t.swcb = true)
    (hrem : t.rem = 0) (hlen : t.len = 0) (hwf : t.buf.wf = true) : t.Safe :=
  ⟨(State.lawful_of_awaitingHeader hasm).mpr ⟨hswcb, hrem, hlen⟩, hwf, State.bytesHeld_of_len_zero hlen⟩

/-- Reset's registers with any cycles to come. -/
theorem State.reset_safe (inputs : List Ports) : { State.reset with inputs := inputs }.Safe :=
  State.safe_of_idle rfl rfl rfl rfl State.reset_buf_wf

/-- A header byte, stored at index 0, opens a lawful packet: `LEN` is 1 and `REM` one more than the count it declares. -/
theorem State.startCollecting_safe {s : State} {m : Memory} {b : Byte} (hwf : m.wf = true)
    (hbuf : s.buf = m.put 0 b) : (s.startCollecting b).Safe := by
  have hrem := remOfHeader_toNat b
  have hcount := headerCount_le b
  refine ⟨(State.lawful_of_collecting rfl).mpr ⟨b, ?_, ?_⟩, ?_, State.bytesHeld_iff.mpr fun i hi => ?_⟩
  · simp [hbuf, Memory.read_put_same]
  · have hlen : (s.startCollecting b).len.toNat = 1 := rfl
    rw [hlen, State.startCollecting_rem, hrem]
    omega
  · simpa [hbuf] using Memory.put_wf hwf (by omega)
  · obtain rfl : i = 0 := by simpa using hi
    simp [hbuf]

/-- An appended byte keeps the packet lawful: `LEN` gains what `REM` loses, and index `LEN` is now held. -/
theorem State.appendByte_safe {s : State} (b : Byte) (hs : s.Safe) (hasm : s.asm = .collecting)
    (hmore : 1 < s.rem.toNat) : (s.appendByte b).Safe := by
  obtain ⟨hlaw, hwf, hheld⟩ := hs
  obtain ⟨hd, hread, -, hrem16, hlen1, hlen16, hsum⟩ := (State.lawful_of_collecting hasm).mp hlaw
  have hcount := headerCount_le hd
  have hlen : (s.appendByte b).len.toNat = s.len.toNat + 1 := by
    change (s.len + 1).toNat = _
    bv_omega
  have hrem : (s.appendByte b).rem.toNat = s.rem.toNat - 1 := by
    change (s.rem - 1).toNat = _
    bv_omega
  have hbuf : (s.appendByte b).buf = s.buf.put s.len.toNat b := rfl
  have hasm' : (s.appendByte b).asm = .collecting := hasm
  refine ⟨(State.lawful_of_collecting hasm').mpr ⟨hd, ?_, ?_⟩, ?_, State.bytesHeld_iff.mpr fun i hi => ?_⟩
  · rw [hbuf, Memory.read_put_other _ _ (by omega), hread]
  · omega
  · exact hbuf ▸ Memory.put_wf hwf (by omega)
  · by_cases hlast : i = s.len.toNat
    · simp [hbuf, hlast]
    · rw [hbuf, Memory.byteAt_put_other _ _ hlast]
      exact State.bytesHeld_iff.mp hheld i (by omega)

/-- Before its checksum a safe packet's bytes are all there, and as many as its header declares. -/
theorem State.Safe.gathered {s : State} (hs : s.Safe) (hasm : s.asm = .collecting) (hrem : s.rem.toNat = 1) :
    ∃ payload, s.buf.readBelow s.len.toNat = .ok payload ∧ framed payload = true := by
  obtain ⟨hlaw, -, hheld⟩ := hs
  obtain ⟨hd, hread, -, -, hlen1, hlen16, hsum⟩ := (State.lawful_of_collecting hasm).mp hlaw
  obtain ⟨payload, hp⟩ := Memory.readBelow_of_held (by omega) (State.bytesHeld_iff.mp hheld)
  obtain ⟨hlength, hbytes⟩ := Memory.readBelow_ok hp
  refine ⟨payload, hp, ?_⟩
  cases payload with
  | nil => simp at hlength; omega
  | cons h rest =>
    have hhead : h = hd := by
      have hzero := hbytes 0 (by simp)
      rw [hread] at hzero
      simpa using hzero.symm
    simp only [List.length_cons] at hlength
    simp only [framed_cons, beq_iff_eq, hhead]
    omega

/-! ### Data bytes and symbols from a safe state -/

theorem DataEffect.safe {b : Byte} {s t : State} (h : DataEffect b s t) (hs : s.Safe) : t.Safe := by
  have hwf := hs.buf_wf
  cases h with
  | bareHeader =>
    exact (State.startCollecting_safe (s := (s.setBuf (s.buf.put 0 b)).openBare s.port.symStart) hwf rfl).congr
      rfl rfl rfl rfl rfl
  | calledHeader =>
    exact (State.startCollecting_safe (s := s.setBuf (s.buf.put 0 b)) hwf rfl).congr rfl rfl rfl rfl rfl
  | append hasm hrem => exact State.appendByte_safe b hs hasm hrem
  | complete _ _ hlen => exact State.safe_of_idle rfl rfl rfl rfl (Memory.put_wf hwf hlen)

theorem DataEffect.exists_of_safe (b : Byte) {s : State} (hs : s.Safe) : ∃ t, DataEffect b s t := by
  cases hasm : s.asm with
  | idle => exact ⟨_, .bareHeader hasm⟩
  | awaitingHeader => exact ⟨_, .calledHeader hasm⟩
  | collecting =>
    obtain ⟨hd, -, hrem1, -, -, hlen16, -⟩ := (State.lawful_of_collecting hasm).mp hs.lawful
    by_cases hmore : 1 < s.rem.toNat
    · exact ⟨_, .append hasm hmore (by omega)⟩
    · have hrem : s.rem.toNat = 1 := by omega
      obtain ⟨payload, hread, hf⟩ := hs.gathered hasm hrem
      obtain ⟨body, hbody⟩ := dispatch_of_framed (dirOfSwcb s.swcb) hf
      exact ⟨_, .complete hasm hrem (by omega) hread hbody⟩

/-- A symbol taken in a safe state is answered, and by a safe state. -/
theorem exec_decodeSymbol_safe (v : Symbol) {s : State} (hs : s.Safe) :
    ∃ t, exec (decodeSymbol v) s = .next t ∧ t.Safe := by
  obtain hx | hx | ⟨e, hx, -⟩ := exec_decodeSymbol v <;> rw [hx]
  · obtain ⟨t, ht⟩ := DataEffect.exists_of_safe (lowByte v) hs
    exact ⟨t, exec_data_iff.mpr ht, ht.safe hs⟩
  · exact ⟨_, rfl, State.safe_of_awaitingHeader rfl rfl rfl rfl hs.buf_wf⟩
  · exact ⟨_, rfl, hs.congr rfl rfl rfl rfl rfl⟩

theorem State.latch_safe {s : State} (hs : s.Safe) (p : Ports) (rest : List Ports) : (s.latch p rest).Safe :=
  hs.congr rfl rfl rfl rfl rfl

/-! ### Steps and runs -/

/-- A safe state's step answers, and answers a safe state: progress and preservation in one. -/
theorem step_of_safe {s : State} (hs : s.Safe) : ∃ t, step s = .next t ∧ t.Safe := by
  cases hin : s.inputs with
  | nil => exact ⟨_, step_nil hin, hs.congr rfl rfl rfl rfl rfl⟩
  | cons p rest =>
    have hlatch := State.latch_safe hs p rest
    cases hr : p.rst with
    | true => exact ⟨_, step_rst hin hr, State.safe_of_idle rfl rfl rfl rfl rfl⟩
    | false =>
      cases hv : p.symValid with
      | false => exact ⟨_, step_quiet hin hr hv, hlatch⟩
      | true =>
        cases he : p.symErr with
        | true => exact ⟨_, step_flagged hin hr hv hs.lawful he, hlatch⟩
        | false =>
          rw [step_taken hin hr hv hs.lawful he]
          exact exec_decodeSymbol_safe p.symValue hlatch

/-- The induction over steps: a run from a safe state answers, and its state is safe. -/
theorem run_of_safe (n : Nat) {s : State} (hs : s.Safe) : ∃ t : State, core.run n s = .next t ∧ t.Safe := by
  induction n generalizing s with
  | zero => exact ⟨s, rfl, hs⟩
  | succ n ih =>
    obtain ⟨u, hstep, hu⟩ := step_of_safe hs
    obtain ⟨t, hrun, ht⟩ := ih hu
    exact ⟨t, (core_run_succ n hstep).trans hrun, ht⟩

/-- Settles O45. -/
theorem resetIsSafe : Obligations.ResetIsSafe := State.reset_safe []

/-- Settles O46: the one state a safe state's step answers is safe. -/
theorem stepKeepsSafe : Obligations.StepKeepsSafe := by
  intro s t hs hstep
  obtain ⟨u, hu, hsafe⟩ := step_of_safe hs
  obtain rfl : u = t := by simpa [hu] using hstep
  exact hsafe

/-- Settles O48: runs from reset stay safe, and the clauses are what lawfulness says of each value of `ASM`. -/
theorem reachableStatesMeetTheInvariant : Obligations.ReachableStatesMeetTheInvariant := by
  intro inputs n
  obtain ⟨t, hrun, hlaw, -, -⟩ := run_of_safe n (State.reset_safe inputs)
  have hidle (hasm : t.asm = .idle) := (State.lawful_of_idle hasm).mp hlaw
  refine ⟨t, hrun, hidle, fun hasm => (State.lawful_of_awaitingHeader hasm).mp hlaw, fun hasm => ?_,
    fun hswcb hasm => ?_⟩
  · obtain ⟨hd, hread, hrem1, hrem16, hlen1, hlen16, hsum⟩ := (State.lawful_of_collecting hasm).mp hlaw
    exact ⟨hrem1, hrem16, hlen1, hlen16, hd, hread, headerCount_eq hd ▸ hsum⟩
  · simp [(hidle hasm).1] at hswcb

end Sys2Proof.Machine
end

section
/-! PROOFS. Two noninterference statements: what is unspecified never shows (spec/10_state.md R36, R261), and the toggle
withholds an event alone (R30). Each is a step lemma over two runs, from one over the data operations. -/

namespace Sys2Proof.Machine

/-! ### Agreeing states -/

theorem Memory.readBelow_congr {m m' : Memory} {n : Nat} (h : ∀ i, i < n → m.byteAt i = m'.byteAt i) :
    m.readBelow n = m'.readBelow n := by
  induction n with
  | zero => rfl
  | succ n ih =>
    have hread : m.read n = m'.read n := by simp [Memory.read, h n (by omega)]
    simp only [Memory.readBelow, ih fun i hi => h i (by omega), hread]

/-- One byte stored at the same index of two buffers that agree below it makes them agree up to it. -/
theorem Memory.byteAt_put_congr {m m' : Memory} {n : Nat} (b : Byte) (h : ∀ i, i < n → m.byteAt i = m'.byteAt i) :
    ∀ i, i < n + 1 → (m.put n b).byteAt i = (m'.put n b).byteAt i := by
  intro i hi
  by_cases hn : i = n
  · simp [hn]
  · rw [Memory.byteAt_put_other _ _ hn, Memory.byteAt_put_other _ _ hn, h i (by omega)]

theorem State.len_succ_toNat_le (s : State) : (s.len + 1).toNat ≤ s.len.toNat + 1 := by
  bv_omega

/-- A data byte of the same cycle does the same to two agreeing states, with the same event. -/
theorem DataEffect.agrees {b : Byte} {s s' t : State} (h : DataEffect b s t) (ha : s.Agrees s')
    (hport : s.port = s'.port) : ∃ t', DataEffect b s' t' ∧ t.evt = t'.evt ∧ t.Agrees t' := by
  obtain ⟨hasm', hswcb, hrem', hlen', hin, hstart, hbuf⟩ := ha
  have hheader := Memory.byteAt_put_congr (m := s.buf) (m' := s'.buf) (n := 0) b (by simp)
  cases h with
  | bareHeader hasm =>
    exact ⟨_, .bareHeader (hasm' ▸ hasm), rfl, rfl, rfl, rfl, rfl, hin,
      fun _ => congrArg Ports.symStart hport, hheader⟩
  | calledHeader hasm =>
    exact ⟨_, .calledHeader (hasm' ▸ hasm), rfl, rfl, hswcb, rfl, rfl, hin,
      fun _ => hstart (by simp [hasm]), hheader⟩
  | append hasm hmore hlen =>
    refine ⟨_, .append (hasm' ▸ hasm) (hrem' ▸ hmore) (hlen' ▸ hlen), rfl, hasm', hswcb, ?_, ?_, hin, hstart,
      fun i hi => ?_⟩
    · simp [State.appendByte, hrem']
    · simp [State.appendByte, hlen']
    · have hbelow := Memory.byteAt_put_congr b hbuf i (Nat.lt_of_lt_of_le hi s.len_succ_toNat_le)
      simpa [State.appendByte, ← hlen'] using hbelow
  | @complete payload body hasm hrem hlen hread hbody =>
    have hread' : s'.buf.readBelow s'.len.toNat = .ok payload := by
      rw [← hlen', ← Memory.readBelow_congr hbuf, hread]
    refine ⟨_, .complete (hasm' ▸ hasm) (hrem' ▸ hrem) (hlen' ▸ hlen) hread' (hswcb ▸ hbody), ?_, rfl, rfl, rfl, rfl,
      hin, fun hne => absurd rfl hne, fun i hi => absurd hi (Nat.not_lt_zero i)⟩
    simp [State.completePacket, hstart (by simp [hasm]), hport]

/-- A symbol of the same cycle does the same to two agreeing states, with the same event. -/
theorem exec_decodeSymbol_agrees (v : Symbol) {s s' t : State} (ha : s.Agrees s') (hport : s.port = s'.port)
    (h : exec (decodeSymbol v) s = .next t) :
    ∃ t', exec (decodeSymbol v) s' = .next t' ∧ t.evt = t'.evt ∧ t.Agrees t' := by
  obtain hx | hx | ⟨e, hx, -⟩ := exec_decodeSymbol v <;> rw [hx] at h ⊢
  · obtain ⟨t', ht', hagree⟩ := (exec_data_iff.mp h).agrees ha hport
    exact ⟨t', exec_data_iff.mpr ht', hagree⟩
  · cases h
    have ⟨_, _, _, _, hin, _, _⟩ := ha
    exact ⟨_, rfl, rfl, rfl, rfl, rfl, rfl, hin, fun _ => congrArg Ports.symStart hport,
      fun i hi => absurd hi (Nat.not_lt_zero i)⟩
  · cases h
    exact ⟨_, rfl, congrArg e hport, ha⟩

theorem State.Agrees.latch {s s' : State} (ha : s.Agrees s') (p : Ports) (rest : List Ports) :
    (s.latch p rest).Agrees (s'.latch p rest) := by
  obtain ⟨hasm, hswcb, hrem, hlen, -, hstart, hbuf⟩ := ha
  exact ⟨hasm, hswcb, hrem, hlen, rfl, hstart, hbuf⟩

/-- Settles O54: the first state's step is followed by the second's through each case of `step_next`. -/
theorem unspecifiedStateNeverShows : Obligations.UnspecifiedStateNeverShows := by
  intro s s' hs hs' ha
  have ⟨_, _, _, _, hin, _, _⟩ := ha
  obtain ⟨t, hstep, -⟩ := step_of_safe hs
  refine ⟨t, ?_⟩
  obtain ⟨hnil, rfl⟩ | ⟨p, rest, hcons, hcase⟩ := step_next hstep
  · exact ⟨_, hstep, step_nil (hin ▸ hnil), rfl, ha⟩
  · have hcons' : s'.inputs = p :: rest := hin ▸ hcons
    obtain ⟨hr, rfl⟩ | ⟨hr, hv, rfl⟩ | ⟨hr, hv, -, he, rfl⟩ | ⟨hr, hv, -, he, hexec⟩ := hcase
    · exact ⟨_, hstep, step_rst hcons' hr, rfl, rfl, rfl, rfl, rfl, rfl, fun _ => rfl, fun _ _ => rfl⟩
    · exact ⟨_, hstep, step_quiet hcons' hr hv, rfl, ha.latch p rest⟩
    · exact ⟨_, hstep, step_flagged hcons' hr hv hs'.lawful he, rfl, ha.latch p rest⟩
    · obtain ⟨t', hexec', hagree⟩ := exec_decodeSymbol_agrees p.symValue (ha.latch p rest) rfl hexec
      exact ⟨t', hstep, (step_taken hcons' hr hv hs'.lawful he).trans hexec', hagree⟩

/-! ### The toggle -/

/-- The state with the toggle's sample and the event replaced. -/
def State.withShowAndEvent (s : State) (x : Bool) (e : Option Event) : State :=
  { s with port := { s.port with cfgShowInquiry := x }, evt := e }

/-- No data operation reads the toggle. -/
theorem DataEffect.toggle {b : Byte} {s t : State} (h : DataEffect b s t) (x : Bool) :
    DataEffect b (s.withShowAndEvent x s.evt) (t.withShowAndEvent x t.evt) := by
  cases h with
  | bareHeader hasm => exact .bareHeader hasm
  | calledHeader hasm => exact .calledHeader hasm
  | append hasm hrem hlen => exact .append hasm hrem hlen
  | complete hasm hrem hlen hread hbody => exact .complete hasm hrem hlen hread hbody

/-- A symbol taken with the other value of the toggle leaves the same registers, and the same event but for an inquiry. -/
theorem exec_decodeSymbol_toggle (v : Symbol) {s t : State} (x : Bool) (h : exec (decodeSymbol v) s = .next t) :
    ∃ e, exec (decodeSymbol v) (s.withShowAndEvent x s.evt) = .next (t.withShowAndEvent x e) ∧
      ((∀ b a, decodeSymbol v ≠ .callInq b a) → e = t.evt) := by
  obtain hx | hx | ⟨e, hx, htoggle⟩ := exec_decodeSymbol v <;> rw [hx] at h ⊢
  · exact ⟨t.evt, exec_data_iff.mpr ((exec_data_iff.mp h).toggle x), fun _ => rfl⟩
  · cases h
    exact ⟨none, rfl, fun _ => rfl⟩
  · cases h
    exact ⟨_, rfl, fun hno => htoggle hno s.port x⟩

/-- Two cycles that differ in the toggle alone: the second step's state is the first's but for the sample and the event. -/
theorem step_toggle {s t : State} {p : Ports} {rest : List Ports} (x : Bool)
    (h : step { s with inputs := p :: rest } = .next t) :
    ∃ e, step { s with inputs := { p with cfgShowInquiry := x } :: rest } = .next (t.withShowAndEvent x e) ∧
      ((∀ b a, decodeSymbol p.symValue ≠ .callInq b a) → e = t.evt) := by
  obtain ⟨hnil, -⟩ | ⟨q, tail, hcons, hcase⟩ := step_next h
  · cases hnil
  · cases hcons
    obtain ⟨hr, rfl⟩ | ⟨hr, hv, rfl⟩ | ⟨hr, hv, hlaw, he, rfl⟩ | ⟨hr, hv, hlaw, he, hexec⟩ := hcase
    · exact ⟨none, step_rst rfl hr, fun _ => rfl⟩
    · exact ⟨none, step_quiet rfl hr hv, fun _ => rfl⟩
    · exact ⟨none, step_flagged rfl hr hv hlaw he, fun _ => rfl⟩
    · obtain ⟨e, hexec', hevt⟩ := exec_decodeSymbol_toggle p.symValue x hexec
      have hstep' := step_taken (s := { s with inputs := { p with cfgShowInquiry := x } :: rest }) rfl hr hv hlaw he
      exact ⟨e, hstep'.trans hexec', hevt⟩

/-- Settles O52: `step_toggle` names the second step's state, which has the first's registers and inputs. -/
theorem toggleWithholdsTheEventOnly : Obligations.ToggleWithholdsTheEventOnly := by
  intro s t t' p rest x hstep hstep'
  obtain ⟨e, he, hevt⟩ := step_toggle x hstep
  obtain rfl : t.withShowAndEvent x e = t' := by simpa [he] using hstep'
  exact ⟨rfl, rfl, rfl, rfl, rfl, rfl, rfl, rfl, hevt⟩

end Sys2Proof.Machine
end

section
/-! PROOFS. The payload buffer (spec/20_memory.md R50, R51, R63): the one cell a data byte writes, and the checksum,
which is stored and not read. -/

namespace Sys2Proof.Machine

/-! ### The index that is written -/

/-- `LEN` of a lawful state is an index of `BUF`; outside a packet it is 0. -/
theorem State.len_of_lawful {s : State} (h : s.lawful = true) :
    s.len.toNat < 17 ∧ (s.asm ≠ .collecting → s.len.toNat = 0) := by
  cases hasm : s.asm with
  | idle =>
    obtain ⟨-, -, hlen⟩ := (State.lawful_of_idle hasm).mp h
    simp [hlen]
  | awaitingHeader =>
    obtain ⟨-, -, hlen⟩ := (State.lawful_of_awaitingHeader hasm).mp h
    simp [hlen]
  | collecting =>
    obtain ⟨-, -, -, -, -, hlen16, -⟩ := (State.lawful_of_collecting hasm).mp h
    exact ⟨by omega, fun hne => absurd rfl hne⟩

/-- Whatever a data byte does in a lawful state, it is stored at `LEN`: a header's index 0 is `LEN` there. -/
theorem DataEffect.buf_eq {b : Byte} {s t : State} (h : DataEffect b s t) (hlaw : s.lawful = true) :
    t.buf = s.buf.put s.len.toNat b := by
  obtain ⟨-, hzero⟩ := State.len_of_lawful hlaw
  cases h with
  | bareHeader hasm =>
    rw [hzero (by simp [hasm])]
    rfl
  | calledHeader hasm =>
    rw [hzero (by simp [hasm])]
    rfl
  | append => rfl
  | complete => rfl

theorem decodeSymbol_of_data {v : Symbol} (h : isCallByte v = false) : decodeSymbol v = .data (lowByte v) := by
  simpa [h] using decodeSymbol_cases v

/-- No call byte writes `BUF`. -/
theorem exec_callByte_buf {v : Symbol} {s t : State} (hc : isCallByte v = true)
    (h : exec (decodeSymbol v) s = .next t) : t.buf = s.buf := by
  obtain ⟨hdata, -⟩ | ⟨-, hd | hd | hd | hd⟩ := decodeSymbol_cases v
  · simp [hc] at hdata
  · rw [hd] at h; cases h; rfl
  · rw [hd] at h; cases h; rfl
  · rw [hd, exec_callInq_eq] at h; cases h; rfl
  · rw [hd] at h; cases h; rfl

/-- A data byte taken by a lawful state is stored at `LEN`. -/
theorem step_buf_of_data {s t : State} {p : Ports} {rest : List Ports} (hlaw : s.lawful = true)
    (hin : s.inputs = p :: rest) (hdata : p.PresentsData) (h : step s = .next t) :
    t.buf = s.buf.put s.len.toNat (lowByte p.symValue) := by
  obtain ⟨hr, hv, he, hc⟩ := hdata
  rw [step_taken hin hr hv hlaw he, decodeSymbol_of_data hc] at h
  exact (exec_data_iff.mp h).buf_eq ((s.latch_lawful p rest).trans hlaw)

/-- A cycle without reset that takes no data byte writes nothing to `BUF`, from any state. -/
theorem step_buf_of_not_data {s t : State} {p : Ports} {rest : List Ports} (hin : s.inputs = p :: rest)
    (hr : p.rst = false) (hdata : ¬ p.PresentsData) (h : step s = .next t) : t.buf = s.buf := by
  obtain ⟨hnil, -⟩ | ⟨q, tail, hcons, hcase⟩ := step_next h
  · simp [hin] at hnil
  · obtain ⟨rfl, rfl⟩ : p = q ∧ rest = tail := by simpa [hin] using hcons
    obtain ⟨hrst, -⟩ | ⟨-, -, rfl⟩ | ⟨-, -, -, -, rfl⟩ | ⟨-, hv, -, he, hexec⟩ := hcase
    · simp [hr] at hrst
    · rfl
    · rfl
    · have hc : isCallByte p.symValue = true := by
        simpa [Ports.PresentsData, hr, hv, he] using hdata
      exact (exec_callByte_buf hc hexec).trans (s.latch_buf p rest)

/-- Settles O51: a data byte's one `put`, at `LEN`, read at that index and at every other. -/
theorem bufIsWrittenAtLenAlone : Obligations.BufIsWrittenAtLenAlone := by
  intro s t p rest hs hin hr hstep
  refine ⟨fun hdata => ?_, fun hno => step_buf_of_not_data hin hr hno hstep⟩
  obtain ⟨hlen, -⟩ := State.len_of_lawful hs.lawful
  rw [step_buf_of_data hs.lawful hin hdata hstep]
  exact ⟨Memory.read_put_same s.buf _ hlen, fun j hj => Memory.read_put_other s.buf _ hj⟩

/-! ### The checksum -/

/-- The byte that completes a packet shows in the buffer alone. -/
theorem State.completePacket_setBuf (s : State) (b b' : Byte) (body : EventBody) :
    (s.completePacket b' body).setBuf (s.completePacket b body).buf = s.completePacket b body := rfl

/-- Settles O53: the packet's body is dispatched from the bytes below `LEN`, so it is the same whatever is stored at `LEN`. -/
theorem checksumIsNeverRead : Obligations.ChecksumIsNeverRead := by
  intro s t b b' h
  obtain ⟨hsel, hlen, payload, body, hread, hbody, rfl⟩ := exec_dataLast_iff.mp h
  refine ⟨s.completePacket b' body, exec_dataLast_iff.mpr ⟨hsel, hlen, payload, body, hread, hbody, rfl⟩,
    s.completePacket_setBuf b b' body, Memory.read_put_same s.buf b hlen, Memory.read_put_same s.buf b' hlen,
    fun j hj => ?_⟩
  calc (s.buf.put s.len.toNat b').read j = s.buf.read j := Memory.read_put_other s.buf b' hj
    _ = (s.buf.put s.len.toNat b).read j := (Memory.read_put_other s.buf b hj).symm

end Sys2Proof.Machine
end

section
/-! PROOFS. The encoding of symbols (spec/30_encoding.md R70 to R72): the two formats of a 9-bit value, what each decodes
to, and the pattern each fits. -/

namespace Sys2Proof.Machine

open BitVec (extractLsb'_append_eq_left extractLsb'_append_eq_right extractLsb'_append_eq_of_add_le)

/-! ### The fields of a symbol -/

/-- Every 9-bit value is in one of the two formats. -/
theorem symbol_cases (v : Symbol) :
    (∃ b, v = dataSymbol b) ∨ ∃ bit7 category a, v = callSymbol bit7 category a := by
  have hsplit : v = v.extractLsb' 8 1 ++ lowByte v :=
    (BitVec.extractLsb'_append_extractLsb' (w := 1) (len := 8)).symm
  have hfields : (lowByte v).extractLsb' 0 7 = (lowByte v).extractLsb' 5 2 ++ addressOf (lowByte v) :=
    (BitVec.extractLsb'_append_extractLsb'_eq_extractLsb' (start₁ := 0) (len₁ := 5) (start₂ := 5) rfl).symm
  have hlow : lowByte v = bit7Of (lowByte v) ++ (lowByte v).extractLsb' 0 7 :=
    (BitVec.extractLsb'_append_extractLsb' (w := 1) (len := 7)).symm
  obtain hmark | hmark : v.extractLsb' 8 1 = 0 ∨ v.extractLsb' 8 1 = 1 := by
    generalize v.extractLsb' 8 1 = m
    revert m
    decide
  · exact .inl ⟨lowByte v, by rw [dataSymbol, ← BitVec.ofNat_eq_ofNat, ← hmark, ← hsplit]⟩
  · exact .inr ⟨_, _, _, by rw [callSymbol, ← hfields, ← hlow, ← BitVec.ofNat_eq_ofNat, ← hmark, ← hsplit]⟩

@[simp] theorem lowByte_dataSymbol (b : Byte) : lowByte (dataSymbol b) = b := extractLsb'_append_eq_right

@[simp] theorem isCallByte_dataSymbol (b : Byte) : isCallByte (dataSymbol b) = false := by
  rw [isCallByte, dataSymbol, BitVec.getLsbD_append]
  rfl

@[simp] theorem isCallByte_callSymbol (bit7 : BitVec 1) (category : BitVec 2) (a : BitVec 5) :
    isCallByte (callSymbol bit7 category a) = true := by
  rw [isCallByte, callSymbol, BitVec.getLsbD_append]
  rfl

theorem lowByte_callSymbol (bit7 : BitVec 1) (category : BitVec 2) (a : BitVec 5) :
    lowByte (callSymbol bit7 category a) = bit7 ++ (category ++ a) := extractLsb'_append_eq_right

@[simp] theorem bit7Of_callSymbol (bit7 : BitVec 1) (category : BitVec 2) (a : BitVec 5) :
    bit7Of (lowByte (callSymbol bit7 category a)) = bit7 := by
  rw [lowByte_callSymbol]
  exact extractLsb'_append_eq_left

@[simp] theorem addressOf_callSymbol (bit7 : BitVec 1) (category : BitVec 2) (a : BitVec 5) :
    addressOf (lowByte (callSymbol bit7 category a)) = a := by
  rw [lowByte_callSymbol, addressOf, extractLsb'_append_eq_of_add_le (by decide), extractLsb'_append_eq_right]

/-- The category of a call byte is read from bits 6:5 alone. -/
theorem categoryOf_callSymbol (bit7 : BitVec 1) (category : BitVec 2) (a : BitVec 5) :
    categoryOf (lowByte (callSymbol bit7 category a)) = categoryOf (lowByte (callSymbol 0 category 0)) := by
  simp only [lowByte_callSymbol, categoryOf, BitVec.getLsbD_append]
  rfl

/-! ### Decoding and encoding a symbol -/

theorem decodeSymbol_dataSymbol (b : Byte) : decodeSymbol (dataSymbol b) = .data b := by
  rw [decodeSymbol_of_data (isCallByte_dataSymbol b), lowByte_dataSymbol]

theorem classify_callSymbol (bit7 : BitVec 1) (category : BitVec 2) (a : BitVec 5) :
    classify (callSymbol bit7 category a) = .callByte (categoryOf (lowByte (callSymbol 0 category 0))) bit7 a := by
  simp [classify, categoryOf_callSymbol bit7 category a]

theorem decodeSymbol_callRqack (bit7 : BitVec 1) (a : BitVec 5) :
    decodeSymbol (callSymbol bit7 0b00 a) = .callRqack bit7 a := by
  rw [decodeSymbol, classify_callSymbol]
  rfl

theorem decodeSymbol_callFb (bit7 : BitVec 1) (a : BitVec 5) :
    decodeSymbol (callSymbol bit7 0b01 a) = .callFb bit7 a := by
  rw [decodeSymbol, classify_callSymbol]
  rfl

theorem decodeSymbol_callInq (bit7 : BitVec 1) (a : BitVec 5) :
    decodeSymbol (callSymbol bit7 0b10 a) = .callInq bit7 a := by
  rw [decodeSymbol, classify_callSymbol]
  rfl

theorem decodeSymbol_callBa (bit7 : BitVec 1) (a : BitVec 5) :
    decodeSymbol (callSymbol bit7 0b11 a) = .callBa bit7 a := by
  rw [decodeSymbol, classify_callSymbol]
  rfl

theorem category_cases (category : BitVec 2) :
    category = 0b00 ∨ category = 0b01 ∨ category = 0b10 ∨ category = 0b11 := by
  revert category
  decide

/-- The encoder gives a symbol's own bits back, bit 7 of a call byte included (log 15). -/
theorem encode_decodeSymbol (v : Symbol) : encode (decodeSymbol v) = .symbol v := by
  obtain ⟨b, rfl⟩ | ⟨bit7, category, a, rfl⟩ := symbol_cases v
  · rw [decodeSymbol_dataSymbol, encode]
  · obtain rfl | rfl | rfl | rfl := category_cases category
    · rw [decodeSymbol_callRqack, encode]
    · rw [decodeSymbol_callFb, encode]
    · rw [decodeSymbol_callInq, encode]
    · rw [decodeSymbol_callBa, encode]

/-! ### The patterns of R71 -/

theorem dataSymbol_and_mask (b : Byte) : dataSymbol b &&& 0x160 = dataSymbol (b &&& 0x60) := by
  revert b
  decide

theorem dataSymbol_and_marker (b : Byte) : dataSymbol b &&& 0x100 = 0x000 := by
  revert b
  decide

/-- Under the mask of the call patterns the marker and the category remain. -/
theorem callSymbol_and_mask (bit7 : BitVec 1) (category : BitVec 2) (a : BitVec 5) :
    callSymbol bit7 category a &&& 0x160 = callSymbol 0 category 0 := by
  revert bit7 category a
  decide

theorem callSymbol_and_marker (bit7 : BitVec 1) (category : BitVec 2) (a : BitVec 5) :
    callSymbol bit7 category a &&& 0x100 = 0x100 := by
  revert bit7 category a
  decide

theorem dataSymbol_ne_of_isCallByte (b : Byte) {v : Symbol} (h : isCallByte v = true) : dataSymbol b ≠ v := by
  rintro rfl
  simp at h

/-- A value that fits a call pattern is a call symbol of the pattern's category. -/
theorem callSymbol_of_pattern {v : Symbol} {category : BitVec 2} (h : v &&& 0x160 = callSymbol 0 category 0) :
    ∃ bit7 a, v = callSymbol bit7 category a := by
  obtain ⟨b, rfl⟩ | ⟨bit7, category', a, rfl⟩ := symbol_cases v
  · rw [dataSymbol_and_mask] at h
    exact absurd h (dataSymbol_ne_of_isCallByte _ (isCallByte_callSymbol 0 category 0))
  · rw [callSymbol_and_mask] at h
    have hcat : ∀ x y : BitVec 2, callSymbol 0 x 0 = callSymbol 0 y 0 → x = y := by decide
    exact ⟨bit7, a, by rw [hcat _ _ h]⟩

/-- A value that fits the data pattern is a data symbol. -/
theorem dataSymbol_of_pattern {v : Symbol} (h : v &&& 0x100 = 0x000) : ∃ b, v = dataSymbol b := by
  obtain hdata | ⟨bit7, category, a, rfl⟩ := symbol_cases v
  · exact hdata
  · rw [callSymbol_and_marker] at h
    exact absurd h (by decide)

theorem extractLsb'_bit7_callSymbol (bit7 : BitVec 1) (category : BitVec 2) (a : BitVec 5) :
    (callSymbol bit7 category a).extractLsb' 7 1 = bit7 :=
  (BitVec.extractLsb'_extractLsb'_of_le (by decide)).symm.trans (bit7Of_callSymbol bit7 category a)

theorem extractLsb'_address_callSymbol (bit7 : BitVec 1) (category : BitVec 2) (a : BitVec 5) :
    (callSymbol bit7 category a).extractLsb' 0 5 = a :=
  (BitVec.extractLsb'_extractLsb'_of_le (by decide)).symm.trans (addressOf_callSymbol bit7 category a)

/-- Settles O6: a value is a data symbol or a call symbol of one of four categories, and fits that pattern alone. -/
theorem symbolPatternsSelectTheOperation : Obligations.SymbolPatternsSelectTheOperation := by
  refine ⟨fun v => ⟨?_, fun h => ?_, fun h => ?_, fun h => ?_, fun h => ?_, fun h => ?_⟩, fun p t i u herr => ?_⟩
  · obtain ⟨b, rfl⟩ | ⟨bit7, category, a, rfl⟩ := symbol_cases v
    · have hcall (r : Symbol) (hr : isCallByte r = true) : (dataSymbol (b &&& 0x60) == r) = false :=
        beq_false_of_ne (dataSymbol_ne_of_isCallByte _ hr)
      simp only [List.filter, dataSymbol_and_mask, dataSymbol_and_marker, hcall 0x100 rfl, hcall 0x120 rfl,
        hcall 0x140 rfl, hcall 0x160 rfl]
      rfl
    · simp only [List.filter, callSymbol_and_mask, callSymbol_and_marker]
      obtain rfl | rfl | rfl | rfl := category_cases category <;> rfl
  · obtain ⟨bit7, a, rfl⟩ := callSymbol_of_pattern (category := 0b00) h
    rw [decodeSymbol_callRqack, extractLsb'_bit7_callSymbol, extractLsb'_address_callSymbol]
  · obtain ⟨bit7, a, rfl⟩ := callSymbol_of_pattern (category := 0b01) h
    rw [decodeSymbol_callFb, extractLsb'_bit7_callSymbol, extractLsb'_address_callSymbol]
  · obtain ⟨bit7, a, rfl⟩ := callSymbol_of_pattern (category := 0b10) h
    rw [decodeSymbol_callInq, extractLsb'_bit7_callSymbol, extractLsb'_address_callSymbol]
  · obtain ⟨bit7, a, rfl⟩ := callSymbol_of_pattern (category := 0b11) h
    rw [decodeSymbol_callBa, extractLsb'_bit7_callSymbol, extractLsb'_address_callSymbol]
  · obtain ⟨b, rfl⟩ := dataSymbol_of_pattern h
    exact (decodeSymbol_dataSymbol b).trans (congrArg Instr.data (lowByte_dataSymbol b).symm)
  · rw [fetchSymbol_eq, if_pos herr]
    split <;> exact Fetched.noConfusion

end Sys2Proof.Machine
end

section
/-! PROOFS. The two round trips between an instruction and its code (spec/30_encoding.md R71, R77, R79, R84, R85, R144).
A packet selects an operation by direction, header and sub-opcode; what is left of it is the operands. -/

namespace Sys2Proof.Machine

/-! ### From an instruction to its code and back -/

/-- Settles O1: the tables select the operation of each packet's own header and sub-opcode, and its operands follow. -/
theorem decodeOfEncodeIsTheInstruction : Obligations.DecodeOfEncodeIsTheInstruction := by
  intro i hwf
  cases i
  case callRqack bit7 a => exact congrArg Except.ok (decodeSymbol_callRqack bit7 a)
  case callFb bit7 a => exact congrArg Except.ok (decodeSymbol_callFb bit7 a)
  case callInq bit7 a => exact congrArg Except.ok (decodeSymbol_callInq bit7 a)
  case callBa bit7 a => exact congrArg Except.ok (decodeSymbol_callBa bit7 a)
  case data b | dataHdr0 b | dataHdr1 b | dataBody b | dataLast b =>
    exact congrArg Except.ok (decodeSymbol_dataSymbol b)
  case unknown dir payload =>
    simp only [Instr.wellFormed, unknownWellFormed, Bool.and_eq_true, beq_iff_eq] at hwf
    obtain ⟨hframed, hselect⟩ := hwf
    simp [encode, decode, decodePacket, hframed, hselect, instrOfOp, Instr.asDecoded]
  all_goals rfl

/-! ### What selects an operation -/

/-- The rows of the three tables with the direction each stands for; a broadcast pair is a header with a sub-opcode. -/
def selectingRows : List (Dir × OpcodeRow) :=
  (bcastTable.map fun r => (.stationToDevice, ⟨r.header, some r.second, r.op⟩))
    ++ (d2sTable.map fun r => (.deviceToStation, r)) ++ s2dTable.map fun r => (.stationToDevice, r)

theorem mem_selectingRows_of_bcastTable {r : BcastRow} (h : r ∈ bcastTable) :
    (.stationToDevice, ⟨r.header, some r.second, r.op⟩) ∈ selectingRows := by
  revert r
  decide

theorem mem_selectingRows_of_opcodeTable {dir : Dir} {r : OpcodeRow} (h : r ∈ opcodeTable dir) :
    (dir, r) ∈ selectingRows := by
  revert r
  cases dir <;> decide

/-- The row that selects an operation; `UNKNOWN` has none. -/
def selectorOf (op : PktOp) : Option (Dir × OpcodeRow) := selectingRows.find? fun q => q.2.op == op

/-- No operation stands in two rows. -/
theorem selectorOf_of_mem : ∀ q ∈ selectingRows, selectorOf q.2.op = some q := by decide

theorem bcastLookup_some {dir : Dir} {h : Byte} {rest : List Byte} {op : PktOp}
    (hop : bcastLookup dir (h :: rest) = some op) :
    dir = .stationToDevice ∧ ∃ r ∈ bcastTable, r.header = h ∧ rest.head? = some r.second ∧ r.op = op := by
  cases dir with
  | deviceToStation => simp [bcastLookup_device] at hop
  | stationToDevice =>
    cases rest with
    | nil => cases hop
    | cons x rest =>
      rw [bcastLookup_station] at hop
      obtain ⟨r, hr, rfl⟩ := Option.map_eq_some_iff.mp hop
      have hpair := List.find?_some hr
      simp only [Bool.and_eq_true, beq_iff_eq] at hpair
      exact ⟨rfl, r, List.mem_of_find?_eq_some hr, hpair.1, by simp [hpair.2], rfl⟩

theorem opcodeLookup_found {table : List OpcodeRow} {h : Byte} {rest : List Byte} {op : PktOp}
    (hop : opcodeLookup table (h :: rest) = .found op) :
    ∃ r ∈ table, r.header = h ∧ r.accepts rest.head? = true ∧ r.op = op := by
  simp only [opcodeLookup] at hop
  split at hop
  · cases hop
  · split at hop
    next r hr =>
      have hmem : r ∈ rowsOfHeader table h := List.mem_of_find?_eq_some hr
      rw [rowsOfHeader, List.mem_filter, beq_iff_eq] at hmem
      have haccepts : r.accepts rest.head? = true := by simpa using List.find?_some hr
      exact ⟨r, hmem.1, hmem.2, haccepts, by simpa using hop⟩
    · cases hop

/-- A packet selects `UNKNOWN`, or an operation whose row fits its direction, header and second byte. -/
theorem selectOp_cases (dir : Dir) (h : Byte) (rest : List Byte) :
    selectOp dir (h :: rest) = .unknown ∨
    ∃ r, selectorOf (selectOp dir (h :: rest)) = some (dir, r) ∧ r.header = h ∧ r.accepts rest.head? = true := by
  unfold selectOp
  split
  next op hop =>
    obtain ⟨rfl, r, hr, rfl, hsecond, rfl⟩ := bcastLookup_some hop
    have hrow := selectorOf_of_mem _ (mem_selectingRows_of_bcastTable hr)
    exact .inr ⟨_, hrow, rfl, by simp [OpcodeRow.accepts, hsecond]⟩
  · split
    next op hop =>
      obtain ⟨r, hr, rfl, haccepts, rfl⟩ := opcodeLookup_found hop
      exact .inr ⟨r, selectorOf_of_mem _ (mem_selectingRows_of_opcodeTable hr), rfl, haccepts⟩
    · exact .inl rfl
    · exact .inl rfl

/-! ### From a code to its instruction and back -/

theorem OpcodeRow.head_of_accepts {h sub x : Byte} {op : PktOp} {rest : List Byte}
    (ha : OpcodeRow.accepts ⟨h, some sub, op⟩ (x :: rest).head? = true) : x = sub := by
  simpa [OpcodeRow.accepts] using ha

/-- The bytes that select an operation and the operands taken from a packet are all of the packet's bytes. -/
theorem encode_instrOfOp {op : PktOp} {dir : Dir} {r : OpcodeRow} {rest : List Byte} {i : Instr}
    (hr : selectorOf op = some (dir, r)) (ha : r.accepts rest.head? = true)
    (hlen : rest.length = headerCount r.header) (hi : instrOfOp op dir (r.header :: rest) = .ok i) :
    encode i = .packet dir (r.header :: rest) ∧ i.wellFormed = true := by
  cases op
  case unknown => cases hr
  case ackResp =>
    cases hr
    match rest, hlen with
    | [], _ => cases hi; exact ⟨rfl, rfl⟩
  case accInforeq | accOpreq | accInforesp =>
    cases hr
    match rest, hlen with
    | [a, b], _ => cases hi; exact ⟨rfl, rfl⟩
  case staStatus =>
    cases hr
    match rest, hlen with
    | [x, b2], _ =>
      obtain rfl := OpcodeRow.head_of_accepts ha
      cases hi; exact ⟨rfl, rfl⟩
  case staVersion | locoFnstat | locoFnhi =>
    cases hr
    match rest, hlen with
    | [x, b2, b3], _ =>
      obtain rfl := OpcodeRow.head_of_accepts ha
      cases hi; exact ⟨rfl, rfl⟩
  case locoSpd14 | locoSpd27 | locoSpd28 | locoSpd128 | locoFnG1 | locoFnG2 | locoFnG3 | locoFnG4 | locoFnstG1
      | locoFnstG2 | locoFnstG3 | locoFnstG4 | locoFnstG5 | locoFnstathi =>
    cases hr
    match rest, hlen with
    | [x, b2, b3, b4], _ =>
      obtain rfl := OpcodeRow.head_of_accepts ha
      cases hi; exact ⟨rfl, rfl⟩
  all_goals
    cases hr
    match rest, hlen with
    | [x], _ =>
      obtain rfl := OpcodeRow.head_of_accepts ha
      cases hi; exact ⟨rfl, rfl⟩

theorem length_of_framed {hd : Byte} {rest : List Byte} (h : framed (hd :: rest) = true) :
    rest.length = headerCount hd := by
  simpa [framed_cons] using h

theorem encode_of_decodePacket {dir : Dir} {payload : List Byte} {i : Instr} (h : decodePacket dir payload = .ok i) :
    encode i = .packet dir payload ∧ i.wellFormed = true := by
  obtain ⟨hframed, hi⟩ := decodePacket_ok h
  cases payload with
  | nil => cases hframed
  | cons hd rest =>
    obtain hunknown | ⟨r, hr, rfl, ha⟩ := selectOp_cases dir hd rest
    · rw [hunknown] at hi
      cases hi
      exact ⟨rfl, by simp [Instr.wellFormed, unknownWellFormed, hframed, hunknown]⟩
    · exact encode_instrOfOp hr ha (length_of_framed hframed) hi

/-- Settles O2: a symbol by its fields, a packet by the row that selects its operation. -/
theorem encodeOfDecodeIsTheCode : Obligations.EncodeOfDecodeIsTheCode := by
  intro c i h
  cases c with
  | symbol v =>
    cases h
    exact ⟨encode_decodeSymbol v, decodeSymbol_wellFormed v, rfl⟩
  | packet dir payload =>
    obtain ⟨hcode, hwf⟩ := encode_of_decodePacket h
    exact ⟨hcode, hwf, (decodePacket_ok h).1⟩

end Sys2Proof.Machine
end

section
/-! PROOFS. Reassembly (spec/41_packet_assembler.md R120 to R127): the steps that take a packet's symbols one by one, and
the one event at its end. -/

namespace Sys2Proof.Machine

/-! ### Single steps -/

/-- A data byte taken by a lawful state. -/
theorem step_data {s t : State} {p : Ports} {rest : List Ports} (hlaw : s.lawful = true) (hin : s.inputs = p :: rest)
    (hp : p.PresentsData) (h : DataEffect (lowByte p.symValue) (s.latch p rest) t) : step s = .next t := by
  obtain ⟨hr, hv, he, hc⟩ := hp
  rw [step_taken hin hr hv hlaw he, decodeSymbol_of_data hc]
  exact exec_data_iff.mpr h

/-- A `CALL.BA` taken by a lawful state. -/
theorem step_callBa {s : State} {p : Ports} {rest : List Ports} {bit7 : BitVec 1} {a : BitVec 5}
    (hlaw : s.lawful = true) (hin : s.inputs = p :: rest) (hp : p.Presents (callSymbol bit7 0b11 a)) :
    step s = .next (((s.latch p rest).setAddr a).openCalled p.symStart).emitNone := by
  obtain ⟨hr, hv, he, hval⟩ := hp
  rw [step_taken hin hr hv hlaw he, hval, decodeSymbol_callBa]
  rfl

theorem State.Safe.openCalled {s : State} (hs : s.Safe) (a : BitVec 5) (t : Config.Time) :
    ((s.setAddr a).openCalled t).emitNone.Safe := State.safe_of_awaitingHeader rfl rfl rfl rfl hs.buf_wf

/-! ### Runs that complete a packet -/

/-- A run of `n` steps from `s` emits nothing before the last, and there the one event of the packet `payload`; it ends
idle, with the inputs `rest` to come and `ADDR` holding `a`. -/
def Reassembles (n : Nat) (s : State) (dir : Dir) (payload : List Byte) (t0 t1 : Config.Time) (rest : List Ports)
    (a : BitVec 5) : Prop :=
  (∀ k, 0 < k → k < n → ∃ u : State, core.run k s = .next u ∧ u.evt = none) ∧
  ∃ (t : State) (e : EventBody), core.run n s = .next t ∧ dispatch dir payload = .ok e ∧
    t.evt = some ⟨e, t0, t1⟩ ∧ t.asm = .idle ∧ t.inputs = rest ∧ t.addr = a

theorem Reassembles.last {s t : State} {dir : Dir} {payload : List Byte} {e : EventBody} {t0 t1 : Config.Time}
    (hstep : step s = .next t) (he : dispatch dir payload = .ok e) (hevt : t.evt = some ⟨e, t0, t1⟩)
    (hasm : t.asm = .idle) : Reassembles 1 s dir payload t0 t1 t.inputs t.addr :=
  ⟨fun _ hpos hlt => absurd hlt (Nat.not_lt.mpr hpos), t, e, core_run_succ 0 hstep, he, hevt, hasm, rfl, rfl⟩

/-- A step without an event before a run that reassembles a packet. -/
theorem Reassembles.cons {n : Nat} {s u : State} {dir : Dir} {payload : List Byte} {t0 t1 : Config.Time}
    {rest : List Ports} {a : BitVec 5} (hstep : step s = .next u) (hevt : u.evt = none)
    (h : Reassembles n u dir payload t0 t1 rest a) : Reassembles (n + 1) s dir payload t0 t1 rest a := by
  obtain ⟨hquiet, t, e, hrun, hend⟩ := h
  refine ⟨fun k hpos hlt => ?_, t, e, (core_run_succ n hstep).trans hrun, hend⟩
  match k, hpos with
  | 1, _ => exact ⟨u, core_run_succ 0 hstep, hevt⟩
  | k + 2, _ =>
    obtain ⟨v, hv, hnone⟩ := hquiet (k + 1) (by omega) (by omega)
    exact ⟨v, (core_run_succ (k + 1) hstep).trans hv, hnone⟩

/-- A packet in progress: the bytes gathered, and how many are still to arrive. -/
structure State.Gathering (s : State) (gathered : List Byte) (missing : Nat) : Prop where
  safe : s.Safe
  asm : s.asm = .collecting
  rem : s.rem.toNat = missing
  bytes : s.buf.readBelow s.len.toNat = .ok gathered

theorem State.Gathering.len_lt {s : State} {gathered : List Byte} {missing : Nat} (h : s.Gathering gathered missing) :
    s.len.toNat < 17 := (State.len_of_lawful h.safe.lawful).1

theorem State.Gathering.latch {s : State} {gathered : List Byte} {missing : Nat} (h : s.Gathering gathered missing)
    (p : Ports) (rest : List Ports) : (s.latch p rest).Gathering gathered missing :=
  ⟨State.latch_safe h.safe p rest, h.asm, h.rem, h.bytes⟩

/-- A header byte, stored at index 0, begins to gather. -/
theorem State.startCollecting_gathering {s : State} {b : Byte} {m : Memory} (hwf : m.wf = true)
    (hbuf : s.buf = m.put 0 b) : (s.startCollecting b).emitNone.Gathering [b] (headerCount b + 1) where
  safe := (State.startCollecting_safe hwf hbuf).congr rfl rfl rfl rfl rfl
  asm := rfl
  rem := remOfHeader_toNat b
  bytes := by
    have hread := Memory.readBelow_append (m := m) (n := 0) b (by omega) rfl
    simpa [hbuf] using hread

theorem State.bareHeader_gathering {s : State} (hwf : s.buf.wf = true) (b : Byte) :
    (s.bareHeader b).Gathering [b] (headerCount b + 1) :=
  State.startCollecting_gathering (s := (s.setBuf (s.buf.put 0 b)).openBare s.port.symStart) hwf rfl

theorem State.calledHeader_gathering {s : State} (hwf : s.buf.wf = true) (b : Byte) :
    (s.calledHeader b).Gathering [b] (headerCount b + 1) :=
  State.startCollecting_gathering (s := s.setBuf (s.buf.put 0 b)) hwf rfl

theorem State.Gathering.appendByte {s : State} {gathered : List Byte} {missing : Nat}
    (h : s.Gathering gathered (missing + 1)) (hmore : 0 < missing) (b : Byte) :
    (s.appendByte b).Gathering (gathered ++ [b]) missing where
  safe := State.appendByte_safe b h.safe h.asm (by rw [h.rem]; omega)
  asm := h.asm
  rem := by
    have hrem := h.rem
    change (s.rem - 1).toNat = _
    bv_omega
  bytes := by
    have hlen : (s.appendByte b).len.toNat = s.len.toNat + 1 := by
      have hlt := h.len_lt
      change (s.len + 1).toNat = _
      bv_omega
    rw [hlen]
    exact Memory.readBelow_append b h.len_lt h.bytes

/-- The rest of a packet: each data byte is appended without an event, and the checksum completes the packet. -/
theorem State.Gathering.reassembles {s : State} {gathered : List Byte} {body rest : List Ports} {px : Ports}
    (h : s.Gathering gathered (body.length + 1)) (hin : s.inputs = body ++ px :: rest) (hpx : px.PresentsData)
    (hbody : ∀ p ∈ body, p.PresentsData) :
    Reassembles (body.length + 1) s (dirOfSwcb s.swcb) (gathered ++ body.map fun p => lowByte p.symValue)
      s.start px.symEnd rest s.addr := by
  induction body generalizing s gathered with
  | nil =>
    obtain ⟨payload, hread, hframed⟩ := h.safe.gathered h.asm h.rem
    obtain rfl : payload = gathered := by simpa [h.bytes] using hread.symm
    obtain ⟨e, he⟩ := dispatch_of_framed (dirOfSwcb s.swcb) hframed
    have hstep := step_data h.safe.lawful hin hpx (.complete h.asm h.rem h.len_lt h.bytes he)
    rw [List.map_nil, List.append_nil]
    exact .last hstep he rfl rfl
  | cons p body ih =>
    have hnext := (h.latch p (body ++ px :: rest)).appendByte (by simp) (lowByte p.symValue)
    have hstep := step_data h.safe.lawful hin (hbody p (by simp))
      (.append h.asm (by rw [State.latch_rem, h.rem]; simp) h.len_lt)
    have hrun := ih hnext rfl fun q hq => hbody q (by simp [hq])
    rw [List.append_assoc] at hrun
    exact hrun.cons hstep rfl

/-- Settles O55: a bare header, then the rest of the packet. -/
theorem devicePacketIsReassembled : Obligations.DevicePacketIsReassembled := by
  intro s ph px body rest hs hasm hin hph hpx hbody hlen
  have hheader := step_data hs.lawful hin hph (.bareHeader hasm)
  have hgather := State.bareHeader_gathering (s := s.latch ph (body ++ px :: rest)) hs.buf_wf (lowByte ph.symValue)
  rw [← hlen] at hgather
  exact (hgather.reassembles rfl hpx hbody).cons hheader rfl

/-- The header of a packet that a call byte opened, then the rest of the packet. -/
theorem reassembles_of_awaitingHeader {s : State} {ph px : Ports} {body rest : List Ports} (hs : s.Safe)
    (hasm : s.asm = .awaitingHeader) (hin : s.inputs = ph :: (body ++ px :: rest)) (hph : ph.PresentsData)
    (hpx : px.PresentsData) (hbody : ∀ p ∈ body, p.PresentsData)
    (hlen : body.length = headerCount (lowByte ph.symValue)) :
    Reassembles (body.length + 2) s (dirOfSwcb s.swcb) (lowByte ph.symValue :: body.map fun p => lowByte p.symValue)
      s.start px.symEnd rest s.addr := by
  have hheader := step_data hs.lawful hin hph (.calledHeader hasm)
  have hgather := State.calledHeader_gathering (s := s.latch ph (body ++ px :: rest)) hs.buf_wf (lowByte ph.symValue)
  rw [← hlen] at hgather
  exact (hgather.reassembles rfl hpx hbody).cons hheader rfl

/-- Settles O56: the call byte, which opens a packet whatever was in progress, then the packet's own bytes. -/
theorem stationPacketIsReassembled : Obligations.StationPacketIsReassembled := by
  intro s pc ph px body rest b a hs hin hpc hph hpx hbody hlen
  have hcall := step_callBa hs.lawful hin hpc
  have hopen := (State.latch_safe hs pc (ph :: (body ++ px :: rest))).openCalled a pc.symStart
  exact (reassembles_of_awaitingHeader hopen rfl rfl hph hpx hbody hlen).cons hcall rfl

end Sys2Proof.Machine
end

section
/-! PROOFS. The tables of spec/30_encoding.md: the match-and-mask rows are disjoint (R77), the kind codes (R88), and words
written out bit by bit. -/

namespace Sys2Proof.Machine

/-- Two rows whose patterns differ in a bit that both masks keep fit no common dispatch word. -/
theorem DwRow.not_fits_both {r q : DwRow} (hne : r.pattern &&& q.mask ≠ q.pattern &&& r.mask) (dw : BitVec 17) :
    ¬(r.fits dw = true ∧ q.fits dw = true) := by
  simp only [DwRow.fits, beq_iff_eq]
  rintro ⟨hr, hq⟩
  apply hne
  rw [← hr, ← hq, BitVec.and_assoc, BitVec.and_assoc, BitVec.and_comm r.mask]

/-- Any two of the 34 rows differ in such a bit. -/
theorem dwRows_pairwise : dwRows.Pairwise fun r q => r.pattern &&& q.mask ≠ q.pattern &&& r.mask := by decide

/-- Settles O5: of two rows that a dispatch word fits, the pairwise difference of the patterns leaves none. -/
theorem dispatchRowsAreDisjoint : Obligations.DispatchRowsAreDisjoint := by
  intro dw
  have hpair := dwRows_pairwise.filter fun r => r.fits dw
  have hfits : ∀ r ∈ dwRows.filter fun r => r.fits dw, r.fits dw = true := fun r hr => (List.mem_filter.mp hr).2
  match h : dwRows.filter fun r => r.fits dw with
  | [] => simp [h]
  | [r] => simp [h]
  | r :: q :: rest =>
    rw [h] at hpair hfits
    have hne := (List.pairwise_cons.mp hpair).1 q (by simp)
    exact absurd ⟨hfits r (by simp), hfits q (by simp)⟩ (DwRow.not_fits_both hne dw)

/-- Settles O7: the decoder evaluated on each word. -/
theorem sampleWordsDecode : Obligations.SampleWordsDecode := ⟨rfl, rfl, rfl, rfl, rfl, rfl, rfl, rfl, rfl⟩

/-- Settles O8: code and tag are read from an event's constructor, whatever its fields hold. -/
theorem kindCodesFollowTheTable : Obligations.KindCodesFollowTheTable := by
  unfold Obligations.KindCodesFollowTheTable
  intros
  rfl

end Sys2Proof.Machine
end

section
/-! PROOFS. Operand bits (spec/30_encoding.md R83, R87, R167): a function set has no bit outside its mask, and the bits no
rule reads have no effect on any meaning. -/

namespace Sys2Proof.Machine

/-! ### Function sets -/

/-- No bit of the set is 1 where its mask is 0 (R87). -/
def FnSet.UnderMask (f : FnSet) : Prop := f.bits &&& ~~~f.mask = 0

theorem FnSet.underMask_iff {f : FnSet} :
    f.UnderMask ↔ ∀ k, k < 29 → f.bits.getLsbD k = true → f.mask.getLsbD k = true := by
  constructor
  · intro h k hk hbit
    have hzero := congrArg (·.getLsbD k) h
    simpa [hk, hbit] using hzero
  · intro h
    refine BitVec.eq_of_getLsbD_eq fun k hk => ?_
    cases hbit : f.bits.getLsbD k with
    | false => simp [hbit]
    | true => simp [h k hk hbit]

theorem FnSet.UnderMask.or {x y : FnSet} (hx : x.UnderMask) (hy : y.UnderMask) : (x.or y).UnderMask := by
  rw [FnSet.underMask_iff] at *
  intro k hk hbit
  simp only [FnSet.or, BitVec.getLsbD_or, Bool.or_eq_true] at hbit ⊢
  exact hbit.imp (hx k hk) (hy k hk)

/-- A run from F`k` of a value of `n` bits is under a mask that has the `n` functions from F`k` up. -/
theorem fnRun_underMask {mask v : BitVec 29} {k n : Nat} (hv : ∀ i, n ≤ i → v.getLsbD i = false)
    (hmask : ∀ j < 29, k ≤ j → j < k + n → mask.getLsbD j = true) : (fnRun mask k v).UnderMask := by
  rw [FnSet.underMask_iff]
  intro j hj hbit
  rw [fnRun_getLsbD] at hbit
  simp only [Bool.and_eq_true, Bool.not_eq_true', decide_eq_false_iff_not, Nat.not_lt] at hbit
  obtain ⟨⟨-, hk⟩, hbit⟩ := hbit
  refine hmask j hj hk (Nat.lt_of_not_le fun hn => ?_)
  simp [hv (j - k) (by omega)] at hbit

theorem getLsbD_nibble_of_le (d : Byte) (i : Nat) (hi : 4 ≤ i) :
    ((d.extractLsb' 0 4).setWidth 29).getLsbD i = false := by
  rw [BitVec.getLsbD_setWidth, BitVec.getLsbD_of_ge _ _ hi, Bool.and_false]

theorem getLsbD_byte_of_le (d : Byte) (i : Nat) (hi : 8 ≤ i) : (d.setWidth 29).getLsbD i = false := by
  rw [BitVec.getLsbD_setWidth, BitVec.getLsbD_of_ge _ _ hi, Bool.and_false]

theorem fnG1_underMask (d : Byte) : (fnG1 d).UnderMask := by
  unfold FnSet.UnderMask
  revert d
  decide

theorem fnG2_underMask (d : Byte) : (fnG2 d).UnderMask := fnRun_underMask (getLsbD_nibble_of_le d) (by decide)

theorem fnG3_underMask (d : Byte) : (fnG3 d).UnderMask := fnRun_underMask (getLsbD_nibble_of_le d) (by decide)

theorem fnG4_underMask (d : Byte) : (fnG4 d).UnderMask := fnRun_underMask (getLsbD_byte_of_le d) (by decide)

theorem fnG5_underMask (d : Byte) : (fnG5 d).UnderMask := fnRun_underMask (getLsbD_byte_of_le d) (by decide)

theorem fnF5to12_underMask (d : Byte) : (fnF5to12 d).UnderMask := fnRun_underMask (getLsbD_byte_of_le d) (by decide)

/-- Settles O37: an instruction's set is one of the layouts or the union of two, or it reports none. -/
theorem functionBitsStayUnderTheMask : Obligations.FunctionBitsStayUnderTheMask := by
  intro i body f hbody hf
  cases i
  case callRqack | callFb | callInq | callBa | data | dataHdr0 | dataHdr1 | dataBody | dataLast => cases hbody
  case locoFnG1 ah al d | locoFnstG1 ah al d =>
    cases hbody; cases hf
    exact fnG1_underMask d
  case locoFnG2 ah al d | locoFnstG2 ah al d =>
    cases hbody; cases hf
    exact fnG2_underMask d
  case locoFnG3 ah al d | locoFnstG3 ah al d =>
    cases hbody; cases hf
    exact fnG3_underMask d
  case locoFnG4 ah al d | locoFnstG4 ah al d =>
    cases hbody; cases hf
    exact fnG4_underMask d
  case locoFnstG5 ah al d =>
    cases hbody; cases hf
    exact fnG5_underMask d
  case locoFnstat s0 s1 =>
    cases hbody; cases hf
    exact (fnG1_underMask s0).or (fnF5to12_underMask s1)
  case locoFnhi b2 b3 | locoFnstathi b2 b3 _ =>
    cases hbody; cases hf
    exact (fnG4_underMask b2).or (fnG5_underMask b3)
  all_goals
    cases hbody
    cases hf

/-! ### The bits no rule reads -/

/-- An operand computation that the bits outside a mask do not change agrees on bytes that agree under the mask. -/
theorem eq_of_and_eq {α : Type} {f : Byte → α} {mask : Byte} (hf : ∀ d, f (d &&& mask) = f d) {d d' : Byte}
    (h : d &&& mask = d' &&& mask) : f d = f d' := by
  rw [← hf d, h, hf]

theorem locoAddr_and_mask (al ah : Byte) : locoAddr (ah &&& 0x3F) al = locoAddr ah al := by
  have hmod : (ah.toNat &&& 63) % 64 = ah.toNat % 64 := by
    rw [Nat.and_two_pow_sub_one_eq_mod ah.toNat 6, Nat.mod_mod]
  apply BitVec.eq_of_toNat_eq
  rw [locoAddr_toNat, locoAddr_toNat, BitVec.toNat_and]
  exact congrArg (· * 256 + al.toNat) hmod

theorem fnG1_and_mask : ∀ d : Byte, fnG1 (d &&& 0x1F) = fnG1 d := by decide

theorem nibble_and_mask : ∀ d : Byte, (d &&& 0x0F).extractLsb' 0 4 = d.extractLsb' 0 4 := by decide

theorem accInforeqBody_and_mask (a d : Byte) : accInforeqBody a (d &&& 0x01) = accInforeqBody a d := by
  have hbit : ∀ d : Byte, (d &&& 0x01).extractLsb' 0 1 = d.extractLsb' 0 1 := by decide
  rw [accInforeqBody, accInforeqBody, hbit]

theorem opAddress_and_mask (a d : Byte) : opAddress a (d &&& 0x0F) = opAddress a d := by
  have hbits : ∀ d : Byte, (d &&& 0x0F).extractLsb' 1 2 = d.extractLsb' 1 2 := by decide
  rw [opAddress, opAddress, hbits]

theorem accOpreqBody_and_mask (a d : Byte) : accOpreqBody a (d &&& 0x0F) = accOpreqBody a d := by
  rw [accOpreqBody, accOpreqBody, opAddress_and_mask]
  simp [outputOf, outputStateOf]

theorem statusFlagsOf_and_mask (d : Byte) : statusFlagsOf (d &&& 0xCF) = statusFlagsOf d := by
  simp [statusFlagsOf]

/-- Packet-level instructions that report the same event have the same meaning. -/
theorem exec_congr {i j : Instr} {x y : EventBody} (hi : packetBody i = some x) (hj : packetBody j = some y) (h : x = y)
    (s : State) : exec i s = exec j s := by
  rw [exec_of_packetBody hi, exec_of_packetBody hj, h]

/-- The byte that completes a packet has no effect on its event. -/
theorem exec_dataLast_evt {b b' : Byte} {s t t' : State} (h : exec (.dataLast b) s = .next t)
    (h' : exec (.dataLast b') s = .next t') : t.evt = t'.evt := by
  obtain ⟨-, -, payload, body, hread, hbody, rfl⟩ := exec_dataLast_iff.mp h
  obtain ⟨-, -, payload', body', hread', hbody', rfl⟩ := exec_dataLast_iff.mp h'
  obtain rfl : payload = payload' := by simpa [hread] using hread'
  obtain rfl : body = body' := by simpa [hbody] using hbody'
  rfl

/-- Settles O44: each meaning reads an operand through a computation that the unread bits do not change. -/
theorem unreadBitsAffectNoEvent : Obligations.UnreadBitsAffectNoEvent := by
  intro x x' ah ah' al d d' p p' a s
  refine ⟨rfl, rfl, rfl, rfl, fun t t' => exec_dataLast_evt, fun hah => ?_, fun hd => ?_, fun hd => ?_, fun hd => ?_,
    fun hd => ?_, rfl⟩
  · have haddr : locoAddr ah al = locoAddr ah' al := eq_of_and_eq (f := (locoAddr · al)) (locoAddr_and_mask al) hah
    have hspeed (steps : Steps) : speedBody steps ah al d = speedBody steps ah' al d := by
      rw [speedBody, speedBody, haddr]
    have hop {f f' : FnSet} (hf : f = f') : EventBody.functionOperationInstructions (locoAddr ah al) f
        = .functionOperationInstructions (locoAddr ah' al) f' := by rw [haddr, hf]
    have hset {f f' : FnSet} (hf : f = f') : EventBody.setFunctionState (locoAddr ah al) f
        = .setFunctionState (locoAddr ah' al) f' := by rw [haddr, hf]
    refine ⟨exec_congr rfl rfl (hspeed _) s, exec_congr rfl rfl (hspeed _) s, exec_congr rfl rfl (hspeed _) s,
      exec_congr rfl rfl (hspeed _) s, exec_congr rfl rfl (hop rfl) s, exec_congr rfl rfl (hset rfl) s,
      exec_congr rfl rfl (hset rfl) s, fun hd => ?_, fun hd => ?_⟩
    · have hG1 : fnG1 d = fnG1 d' := eq_of_and_eq fnG1_and_mask hd
      exact ⟨exec_congr rfl rfl (hop hG1) s, exec_congr rfl rfl (hset hG1) s⟩
    · have hnibble : d.extractLsb' 0 4 = d'.extractLsb' 0 4 := eq_of_and_eq nibble_and_mask hd
      have hG2 : fnG2 d = fnG2 d' := by rw [fnG2, fnG2, hnibble]
      have hG3 : fnG3 d = fnG3 d' := by rw [fnG3, fnG3, hnibble]
      exact ⟨exec_congr rfl rfl (hop hG2) s, exec_congr rfl rfl (hset hG2) s, exec_congr rfl rfl (hop hG3) s,
        exec_congr rfl rfl (hset hG3) s⟩
  · have hG1 : fnG1 d = fnG1 d' := eq_of_and_eq fnG1_and_mask hd
    exact exec_congr rfl rfl (congrArg (fun f => .functionStatusResponse (f.or (fnF5to12 x))) hG1) s
  · exact exec_congr rfl rfl (eq_of_and_eq (accInforeqBody_and_mask x) hd) s
  · exact exec_congr rfl rfl (eq_of_and_eq (accOpreqBody_and_mask x) hd) s
  · exact exec_congr rfl rfl (congrArg EventBody.status (eq_of_and_eq statusFlagsOf_and_mask hd)) s

end Sys2Proof.Machine
end

section
/-! PROOFS. A packet presented complete but for its checksum (log 9) is a state of the invariant, in which the next step
completes the packet. -/

namespace Sys2Proof.Machine

/-- The bytes below an index of a row of cells are the row's first ones. -/
theorem Memory.readBelow_cellsFrom {bs : List Byte} {n : Nat} (hn : n ≤ bs.length) (hlen : bs.length ≤ 17) :
    Memory.readBelow (cellsFrom 0 bs) n = .ok (bs.take n) := by
  induction n with
  | zero => rfl
  | succ n ih =>
    have hcell : Memory.byteAt (cellsFrom 0 bs) n = some bs[n] := by
      rw [← List.getElem?_eq_getElem hn, ← Memory.byteAt_cellsFrom 0 n bs, Nat.zero_add]
    have hread := Memory.read_of_byteAt (by omega) hcell
    simp only [Memory.readBelow, ih (by omega), hread, List.take_append_getElem]

theorem length_le_of_framed {payload : List Byte} (h : framed payload = true) : payload.length ≤ 16 := by
  cases payload with
  | nil => cases h
  | cons hd rest =>
    have hlen := length_of_framed h
    have hcount := headerCount_le hd
    simp only [List.length_cons]
    omega

theorem State.beforeChecksum_len (s : State) (dir : Dir) {payload : List Byte} (h : framed payload = true) :
    (s.beforeChecksum dir payload).len.toNat = payload.length := by
  have hle := length_le_of_framed h
  change (BitVec.ofNat 5 payload.length).toNat = _
  rw [BitVec.toNat_ofNat]
  omega

theorem State.beforeChecksum_readBelow (s : State) (dir : Dir) {payload : List Byte} (h : framed payload = true) :
    (s.beforeChecksum dir payload).buf.readBelow (s.beforeChecksum dir payload).len.toNat = .ok payload := by
  have hle := length_le_of_framed h
  rw [s.beforeChecksum_len dir h]
  exact (Memory.readBelow_cellsFrom (Nat.le_refl _) (by omega)).trans (by rw [List.take_length])

theorem State.beforeChecksum_lawful (s : State) (dir : Dir) {payload : List Byte} (h : framed payload = true) :
    (s.beforeChecksum dir payload).lawful = true := by
  have hlen := s.beforeChecksum_len dir h
  have hle := length_le_of_framed h
  cases payload with
  | nil => cases h
  | cons hd rest =>
    have hrest := length_of_framed h
    have hrem : (s.beforeChecksum dir (hd :: rest)).rem.toNat = 1 := rfl
    simp only [List.length_cons] at hlen hle
    exact (State.lawful_of_collecting rfl).mpr ⟨hd, rfl, by omega, by omega, by omega, by omega, by omega⟩

theorem State.beforeChecksum_dir (s : State) (dir : Dir) (payload : List Byte) :
    dirOfSwcb (s.beforeChecksum dir payload).swcb = dir := by
  cases dir <;> rfl

/-- An instruction that reports an event of its own is encoded as a packet and decodes to itself. -/
theorem encode_of_packetBody {i : Instr} {body : EventBody} (h : packetBody i = some body) :
    ∃ dir payload, encode i = .packet dir payload ∧ i.asDecoded = i := by
  cases i
  case callRqack | callFb | callInq | callBa | data | dataHdr0 | dataHdr1 | dataBody | dataLast => cases h
  all_goals exact ⟨_, _, rfl, rfl⟩

/-- Settles O11: the presented packet decodes to the instruction (O1), so the checksum completes it with its event. -/
theorem presentedPacketRunsNext : Obligations.PresentedPacketRunsNext := by
  intro s i body hwf hbody
  obtain ⟨dir, payload, hcode, hself⟩ := encode_of_packetBody hbody
  have hdecode : decodePacket dir payload = .ok i := by
    have hround := decodeOfEncodeIsTheInstruction i hwf
    rwa [hcode, hself] at hround
  obtain ⟨hframed, -⟩ := decodePacket_ok hdecode
  rw [hcode]
  have hdata : (Ports.ofSymbol (dataSymbol 0)).PresentsData := ⟨rfl, rfl, rfl, isCallByte_dataSymbol 0⟩
  have hlen : (s.beforeChecksum dir payload).len.toNat < 17 :=
    (State.len_of_lawful (s.beforeChecksum_lawful dir hframed)).1
  have hdispatch : dispatch (dirOfSwcb (s.beforeChecksum dir payload).swcb) payload = .ok body := by
    rw [s.beforeChecksum_dir dir payload]
    exact dispatch_of_decode hdecode hbody
  have hstep := step_data (s.beforeChecksum_lawful dir hframed) rfl hdata
    (.complete rfl rfl hlen (s.beforeChecksum_readBelow dir hframed) hdispatch)
  exact ⟨_, hstep, rfl, rfl, rfl⟩

end Sys2Proof.Machine
end

section
/-! PROOFS. The symbol classifier (spec/40_symbol_classifier.md R101 to R108): what each call byte writes and emits, where
a data byte goes, and what either leaves alone in every step. -/

namespace Sys2Proof.Machine

/-! ### Single operations -/

/-- Settles O15: the flag is tested before the symbol is decoded. -/
theorem flaggedInputIsSkipped : Obligations.FlaggedInputIsSkipped :=
  fun _ _ _ hin hrst hvalid herr hlaw => step_flagged hin hrst hvalid hlaw herr

/-- Settles O17: the category 00 is decoded, and its meaning writes `ADDR` and the event. -/
theorem callRqackAcknowledges : Obligations.CallRqackAcknowledges :=
  fun bit7 a _ => ⟨decodeSymbol_callRqack bit7 a, rfl⟩

/-- Settles O18: the toggle stands inside the event, so `ADDR` is written for both its values. -/
theorem callInqReportsTheInquiry : Obligations.CallInqReportsTheInquiry :=
  fun bit7 a s => ⟨decodeSymbol_callInq bit7 a, exec_callInq_eq bit7 a s⟩

/-- Settles O19: the state is named, and each register of it read. -/
theorem callBaOpensAPacket : Obligations.CallBaOpensAPacket :=
  fun bit7 a s => ⟨decodeSymbol_callBa bit7 a, ((s.setAddr a).openCalled s.port.symStart).emitNone,
    rfl, rfl, rfl, rfl, rfl, rfl, rfl, rfl, rfl, rfl⟩

/-- Settles O20: the category 01 is decoded, and its meaning writes `ADDR` and the event. -/
theorem callFbIsAPlainCallbyte : Obligations.CallFbIsAPlainCallbyte :=
  fun bit7 a _ => ⟨decodeSymbol_callFb bit7 a, rfl⟩

/-! ### The hand-over of a data byte (R108) -/

theorem exec_data_of_idle (b : Byte) {s : State} (h : s.asm = .idle) :
    exec (.data b) s = exec (.dataHdr0 b) s := by
  simp only [exec_data_eq, h]

theorem exec_data_of_awaitingHeader (b : Byte) {s : State} (h : s.asm = .awaitingHeader) :
    exec (.data b) s = exec (.dataHdr1 b) s := by
  simp only [exec_data_eq, h]

theorem exec_data_of_more (b : Byte) {s : State} (h : s.asm = .collecting) (hrem : 1 < s.rem.toNat) :
    exec (.data b) s = exec (.dataBody b) s := by
  simp only [exec_data_eq, h, if_pos hrem]

theorem exec_data_of_last (b : Byte) {s : State} (h : s.asm = .collecting) (hrem : s.rem.toNat = 1) :
    exec (.data b) s = exec (.dataLast b) s := by
  have hmore : ¬ 1 < s.rem.toNat := by omega
  simp only [exec_data_eq, h, if_neg hmore, if_pos hrem]

/-- No data byte writes `ADDR` (R102). -/
theorem DataEffect.addr_eq {b : Byte} {s t : State} (h : DataEffect b s t) : t.addr = s.addr := by
  cases h with
  | bareHeader => rfl
  | calledHeader => rfl
  | append => rfl
  | complete => rfl

/-- Settles O26: a safe state answers `DATA`, and in the state of each row `DATA` is that row's sub-operation. -/
theorem dataGoesToTheSelectedSubOperation : Obligations.DataGoesToTheSelectedSubOperation := by
  intro b s hs
  obtain ⟨t, heffect⟩ := DataEffect.exists_of_safe b hs
  have ht := exec_data_iff.mpr heffect
  refine ⟨t, ht, heffect.addr_eq, fun hasm => ?_, fun hasm => ?_, fun hasm hrem => ?_, fun hasm hrem => ?_,
    fun hasm => ?_⟩
  · rw [← exec_data_of_idle b hasm, ht]
  · rw [← exec_data_of_awaitingHeader b hasm, ht]
  · rw [← exec_data_of_more b hasm hrem, ht]
  · rw [← exec_data_of_last b hasm hrem, ht]
  · obtain ⟨-, -, hrem, -⟩ := (State.lawful_of_collecting hasm).mp hs.lawful
    exact hrem

theorem exec_dataHdr0_refused (b : Byte) {s : State} (h : s.asm ≠ .idle) :
    exec (.dataHdr0 b) s = .refused (.notSelected "DATA.HDR0") := by
  change execDataHdr0 b s = _
  cases hasm : s.asm with
  | idle => exact absurd hasm h
  | awaitingHeader => simp only [execDataHdr0, hasm]
  | collecting => simp only [execDataHdr0, hasm]

theorem exec_dataHdr1_refused (b : Byte) {s : State} (h : s.asm ≠ .awaitingHeader) :
    exec (.dataHdr1 b) s = .refused (.notSelected "DATA.HDR1") := by
  change execDataHdr1 b s = _
  cases hasm : s.asm with
  | idle => simp only [execDataHdr1, hasm]
  | awaitingHeader => exact absurd hasm h
  | collecting => simp only [execDataHdr1, hasm]

/-- Settles O27: each sub-operation tests its row's state first. -/
theorem subOperationElsewhereIsRefused : Obligations.SubOperationElsewhereIsRefused :=
  fun b _ => ⟨exec_dataHdr0_refused b, exec_dataHdr1_refused b, fun hno => if_neg hno, fun hno => if_neg hno⟩

/-! ### The classifier (R102) -/

theorem isCallByte_iff (v : Symbol) : isCallByte v = true ↔ 256 ≤ v.toNat := by
  have hmsb : isCallByte v = v.msb := (BitVec.msb_eq_getLsbD_last v).symm
  simp [hmsb, BitVec.msb_eq_decide]

theorem isCallByte_eq_false_iff (v : Symbol) : isCallByte v = false ↔ v.toNat < 256 := by
  rw [← Bool.not_eq_true, isCallByte_iff, Nat.not_le]

theorem addressOf_lowByte (v : Symbol) : addressOf (lowByte v) = v.extractLsb' 0 5 :=
  BitVec.extractLsb'_extractLsb'_of_le (by decide)

theorem classify_of_call {v : Symbol} (h : isCallByte v = true) :
    classify v = .callByte (categoryOf (lowByte v)) (bit7Of (lowByte v)) (v.extractLsb' 0 5) := by
  rw [← addressOf_lowByte]
  exact if_pos h

theorem classify_of_data {v : Symbol} (h : isCallByte v = false) : classify v = .dataByte (lowByte v) := by
  simp [classify, h]

/-- The marker alone decides how a symbol is classified. -/
theorem classify_iff (v : Symbol) :
    (isCallByte v = true ↔ ∃ c b, classify v = .callByte c b (v.extractLsb' 0 5)) ∧
    (isCallByte v = false ↔ classify v = .dataByte (lowByte v)) := by
  cases hc : isCallByte v with
  | true => simp [classify_of_call hc]
  | false => simp [classify_of_data hc]

/-! ### The two kinds of symbol in a step -/

/-- What the four call-byte operations have in common: `ADDR` is written and `BUF` is not, and an event is of a call kind
and comes from one of the three operations that emit one (R102, R107). -/
structure CallEffect (v : Symbol) (s t : State) : Prop where
  addr : t.addr = v.extractLsb' 0 5
  buf : t.buf = s.buf
  kind : ∀ e, t.evt = some e → e.body.isCallKind = true
  source : ∀ e, t.evt = some e → ∃ b a,
    decodeSymbol v = .callInq b a ∨ decodeSymbol v = .callRqack b a ∨ decodeSymbol v = .callFb b a

theorem exec_callByte {v : Symbol} {s t : State} (hc : isCallByte v = true)
    (h : exec (decodeSymbol v) s = .next t) : CallEffect v s t := by
  have hbuf := exec_callByte_buf hc h
  have haddr := addressOf_lowByte v
  obtain ⟨hdata, -⟩ | ⟨-, hd | hd | hd | hd⟩ := decodeSymbol_cases v
  · simp [hc] at hdata
  · rw [hd] at h
    cases h
    exact ⟨haddr, hbuf, fun e he => by cases he; rfl, fun _ _ => ⟨_, _, .inr (.inl hd)⟩⟩
  · rw [hd] at h
    cases h
    exact ⟨haddr, hbuf, fun e he => by cases he; rfl, fun _ _ => ⟨_, _, .inr (.inr hd)⟩⟩
  · rw [hd, exec_callInq_eq] at h
    cases h
    refine ⟨haddr, hbuf, fun e he => ?_, fun _ _ => ⟨_, _, .inl hd⟩⟩
    obtain ⟨-, hsome⟩ := Option.ite_none_right_eq_some.mp he
    cases hsome
    rfl
  · rw [hd] at h
    cases h
    exact ⟨haddr, hbuf, fun e he => (by cases he), fun e he => (by cases he)⟩

/-- The dispatcher gives no packet an event of a call kind (R107). -/
theorem isCallKind_of_packetBody {i : Instr} {body : EventBody} (h : packetBody i = some body) :
    body.isCallKind = false := by
  cases i <;> cases h <;> rfl

theorem DataEffect.isCallKind_eq_false {b : Byte} {s t : State} (h : DataEffect b s t) {e : Event}
    (he : t.evt = some e) : e.body.isCallKind = false := by
  cases h with
  | bareHeader => cases he
  | calledHeader => cases he
  | append => cases he
  | complete _ _ _ _ hbody =>
    obtain ⟨i, -, hi⟩ := dispatch_ok hbody
    cases he
    exact isCallKind_of_packetBody hi

/-- Everything a step on a presented cycle can have done: a reset, no symbol taken, a data byte or a call byte taken. -/
theorem step_next_cons {s t : State} {p : Ports} {rest : List Ports} (hin : s.inputs = p :: rest)
    (h : step s = .next t) :
    (p.rst = true ∧ t = (s.latch p rest).resetCycle) ∨
    ((p.symValid = false ∨ p.symErr = true) ∧ t = s.latch p rest) ∨
    (isCallByte p.symValue = false ∧ DataEffect (lowByte p.symValue) (s.latch p rest) t) ∨
    (p.symValid = true ∧ p.symErr = false ∧ isCallByte p.symValue = true ∧
      CallEffect p.symValue (s.latch p rest) t) := by
  obtain ⟨hnil, -⟩ | ⟨q, tail, hcons, hcase⟩ := step_next h
  · simp [hin] at hnil
  · obtain ⟨rfl, rfl⟩ : p = q ∧ rest = tail := by simpa [hin] using hcons
    obtain ⟨hr, ht⟩ | ⟨-, hv, ht⟩ | ⟨-, -, -, he, ht⟩ | ⟨-, hv, -, he, hexec⟩ := hcase
    · exact .inl ⟨hr, ht⟩
    · exact .inr (.inl ⟨.inl hv, ht⟩)
    · exact .inr (.inl ⟨.inr he, ht⟩)
    · cases hc : isCallByte p.symValue with
      | false =>
        rw [decodeSymbol_of_data hc] at hexec
        exact .inr (.inr (.inl ⟨rfl, exec_data_iff.mp hexec⟩))
      | true => exact .inr (.inr (.inr ⟨hv, he, rfl, exec_callByte hc hexec⟩))

/-- Settles O49: the classifier reads the marker, and of the cycles without reset a taken call byte alone writes `ADDR`. -/
theorem addrIsTheLastCallBytesAddress : Obligations.AddrIsTheLastCallBytesAddress := by
  refine ⟨fun v => ?_, fun s t p rest hin hrst hstep => ?_⟩
  · rw [← isCallByte_iff, ← isCallByte_eq_false_iff]
    exact classify_iff v
  · simp only [← isCallByte_iff]
    obtain ⟨hr, -⟩ | ⟨hno, rfl⟩ | ⟨hc, heffect⟩ | ⟨hv, he, hc, heffect⟩ := step_next_cons hin hstep
    · simp [hrst] at hr
    · obtain hv | he := hno
      · simp [hv]
      · simp [he]
    · simp [hc, heffect.addr_eq]
    · simp [hv, he, hc, heffect.addr]

/-- Settles O50: a step that takes no symbol emits nothing, one that takes a data byte no call kind, and one that takes a
call byte a call kind alone, of one of the three operations. -/
theorem callKindsComeFromCallBytes : Obligations.CallKindsComeFromCallBytes := by
  intro s t p rest hin hstep
  rw [← isCallByte_iff, ← isCallByte_eq_false_iff]
  obtain ⟨hr, rfl⟩ | ⟨-, rfl⟩ | ⟨hc, heffect⟩ | ⟨-, -, hc, heffect⟩ := step_next_cons hin hstep
  · simp [hr]
  · simp
  · have hkind {e : Event} (he : t.evt = some e) := heffect.isCallKind_eq_false he
    exact ⟨fun _ _ => hkind, fun hcall => by simp [hc] at hcall, fun e he hcall => by simp [hkind he] at hcall⟩
  · exact ⟨fun hdata => by simp [hc] at hdata, fun _ => ⟨heffect.kind, fun _ => heffect.buf⟩,
      fun e he _ => heffect.source e he⟩

end Sys2Proof.Machine
end

section
/-! PROOFS. The packet assembler (spec/41_packet_assembler.md R120 to R124): the state each sub-operation of `DATA` leaves,
register by register, and the event of the packet that the last byte completes. -/

namespace Sys2Proof.Machine

/-! ### The counters -/

/-- The bytes a header announces, the checksum counted (R120, R121). -/
theorem remOfHeader_toNat_eq_mod (b : Byte) : (remOfHeader b).toNat = b.toNat % 16 + 1 := by
  rw [remOfHeader_toNat, headerCount_eq]

/-- `LEN` does not wrap while its byte fits in `BUF`. -/
theorem State.appendByte_len {s : State} (b : Byte) (h : s.len.toNat ≤ 16) :
    (s.appendByte b).len.toNat = s.len.toNat + 1 := by
  change (s.len + 1).toNat = _
  bv_omega

/-- `REM` does not wrap while a byte is missing. -/
theorem State.appendByte_rem {s : State} (b : Byte) (h : 1 < s.rem.toNat) :
    (s.appendByte b).rem.toNat = s.rem.toNat - 1 := by
  change (s.rem - 1).toNat = _
  bv_omega

/-! ### The bytes before the last (R120 to R122) -/

/-- Settles O21: in `Idle` `DATA` is `DATA.HDR0`, and each register of the state it leaves is read. -/
theorem dataInIdleIsABareHeader : Obligations.DataInIdleIsABareHeader := by
  intro b s hasm
  have hexec : exec (.dataHdr0 b) s = .next (s.bareHeader b) := exec_dataHdr0_iff.mpr ⟨hasm, rfl⟩
  exact ⟨s.bareHeader b, hexec, (exec_data_of_idle b hasm).trans hexec, rfl, rfl, rfl, remOfHeader_toNat_eq_mod b,
    rfl, rfl, rfl, rfl, rfl, Memory.read_put_same s.buf b (by decide)⟩

/-- Settles O22: in `AwaitingHeader` `DATA` is `DATA.HDR1`, which writes neither `SWCB` nor `START`. -/
theorem dataInAwaitingHeaderIsTheHeader : Obligations.DataInAwaitingHeaderIsTheHeader := by
  intro b s hasm
  have hexec : exec (.dataHdr1 b) s = .next (s.calledHeader b) := exec_dataHdr1_iff.mpr ⟨hasm, rfl⟩
  exact ⟨s.calledHeader b, hexec, (exec_data_of_awaitingHeader b hasm).trans hexec, rfl, rfl, rfl,
    remOfHeader_toNat_eq_mod b, rfl, rfl, rfl, rfl, rfl, Memory.read_put_same s.buf b (by decide)⟩

/-- Settles O23: with more to come `DATA` is `DATA.BODY`, whose one `put`, at `LEN`, is read there and below. -/
theorem dataInCollectingIsAppended : Obligations.DataInCollectingIsAppended := by
  intro b s hasm hrem hlen
  have hexec : exec (.dataBody b) s = .next (s.appendByte b) :=
    exec_dataBody_iff.mpr ⟨⟨hasm, hrem⟩, Nat.lt_succ_of_le hlen, rfl⟩
  exact ⟨s.appendByte b, hexec, (exec_data_of_more b hasm hrem).trans hexec, State.appendByte_len b hlen,
    State.appendByte_rem b hrem, hasm, rfl, rfl, rfl, rfl, rfl, rfl,
    Memory.read_put_same s.buf b (Nat.lt_succ_of_le hlen),
    fun _ hj => Memory.read_put_other s.buf b (Nat.ne_of_lt hj)⟩

/-! ### The last byte (R124) -/

/-- A gathered packet that is dispatched is completed by whatever byte comes last. -/
theorem exec_dataLast_of_dispatch {s : State} {payload : List Byte} {body : EventBody} (b : Byte)
    (hasm : s.asm = .collecting) (hrem : s.rem = 1) (hlen : s.len.toNat ≤ 16)
    (hread : s.buf.readBelow s.len.toNat = .ok payload) (hbody : dispatch (dirOfSwcb s.swcb) payload = .ok body) :
    exec (.dataLast b) s = .next (s.completePacket b body) :=
  exec_dataLast_iff.mpr
    ⟨⟨hasm, congrArg BitVec.toNat hrem⟩, Nat.lt_succ_of_le hlen, payload, body, hread, hbody, rfl⟩

/-- Settles O24: a framed payload is dispatched, in the direction `SWCB` gives, and the last byte closes the packet. -/
theorem lastByteCompletesThePacket : Obligations.LastByteCompletesThePacket := by
  intro b s payload hasm hrem hlen hread hframed
  obtain ⟨body, hbody⟩ := dispatch_of_framed (dirOfSwcb s.swcb) hframed
  have hexec := exec_dataLast_of_dispatch b hasm hrem hlen hread hbody
  exact ⟨body, s.completePacket b body, hbody, hexec,
    (exec_data_of_last b hasm (congrArg BitVec.toNat hrem)).trans hexec, rfl, rfl, rfl, rfl, rfl, rfl, rfl, rfl,
    Memory.read_put_same s.buf b (Nat.lt_succ_of_le hlen),
    fun _ hj => Memory.read_put_other s.buf b (Nat.ne_of_lt hj)⟩

/-- Whatever a packet decodes to reports an event of its own: no packet is a symbol-level instruction. -/
theorem packetBody_of_decodePacket {dir : Dir} {payload : List Byte} {i : Instr}
    (h : decodePacket dir payload = .ok i) : ∃ body, packetBody i = some body := by
  obtain ⟨hframed, -⟩ := decodePacket_ok h
  obtain ⟨body, hdispatch⟩ := dispatch_of_framed dir hframed
  obtain ⟨j, hj, hbody⟩ := dispatch_ok hdispatch
  obtain rfl : i = j := Except.ok.inj (h.symm.trans hj)
  exact ⟨body, hbody⟩

/-- Settles O10: the decoded instruction and the last byte drive one body, over the one time range of the packet. -/
theorem lastByteRunsTheDecodedPacket : Obligations.LastByteRunsTheDecodedPacket := by
  intro s b payload i hasm hrem hlen hread hdecode
  obtain ⟨-, hwf⟩ := encode_of_decodePacket hdecode
  obtain ⟨body, hbody⟩ := packetBody_of_decodePacket hdecode
  have hlast := exec_dataLast_of_dispatch b hasm hrem hlen hread (dispatch_of_decode hdecode hbody)
  exact ⟨hwf, s.emitPacket body, s.completePacket b body, exec_of_packetBody hbody s, hlast, rfl, rfl⟩

end Sys2Proof.Machine
end

section
/-! PROOFS. The dispatcher (spec/42_dispatcher.md R140 to R150): the rows that the lookups of R141 read are those of the
match-and-mask table (R77), so both select one operation; broadcasts, and the packets that no row selects. -/

namespace Sys2Proof.Machine

/-! ### The rows that the lookups read -/

/-- A row selects for a packet: it stands for the direction and the header, and takes the second byte (R141, R151). -/
def Selects (q : Dir × OpcodeRow) (dir : Dir) (h : Byte) (rest : List Byte) : Prop :=
  q.1 = dir ∧ q.2.header = h ∧ q.2.accepts rest.head? = true

theorem mem_selectingRows {q : Dir × OpcodeRow} (hq : q ∈ selectingRows) :
    (∃ r ∈ bcastTable, (.stationToDevice, ⟨r.header, some r.second, r.op⟩) = q) ∨ q.2 ∈ opcodeTable q.1 := by
  revert q
  decide

theorem op_ne_unknown_of_mem : ∀ q ∈ selectingRows, q.2.op ≠ .unknown := by decide

/-- A broadcast pair after a call byte is found (R144). -/
theorem bcastLookup_isSome {r : BcastRow} (hr : r ∈ bcastTable) (tail : List Byte) :
    ∃ op, bcastLookup .stationToDevice (r.header :: r.second :: tail) = some op := by
  rw [bcastLookup_station, ← Option.isSome_iff_exists, Option.isSome_map, List.find?_isSome]
  exact ⟨r, hr, by simp⟩

/-- A header with a row that takes the second byte is found (R141 step 3). -/
theorem opcodeLookup_of_accepts {table : List OpcodeRow} {r : OpcodeRow} {rest : List Byte} (hr : r ∈ table)
    (ha : r.accepts rest.head? = true) : ∃ op, opcodeLookup table (r.header :: rest) = .found op := by
  have hmem : r ∈ rowsOfHeader table r.header := List.mem_filter.mpr ⟨hr, beq_self_eq_true _⟩
  simp only [opcodeLookup]
  split
  next hnone => simp [hnone] at hmem
  · split
    next r' _ => exact ⟨r'.op, rfl⟩
    next hnone => exact absurd ha (List.find?_eq_none.mp hnone r hmem)

theorem selectOp_of_bcastLookup {dir : Dir} {payload : List Byte} {op : PktOp}
    (h : bcastLookup dir payload = some op) : selectOp dir payload = op := by
  simp [selectOp, h]

theorem selectOp_of_opcodeLookup {dir : Dir} {payload : List Byte} {op : PktOp}
    (hb : bcastLookup dir payload = none) (h : opcodeLookup (opcodeTable dir) payload = .found op) :
    selectOp dir payload = op := by
  simp [selectOp, hb, h]

/-- What the broadcast check finds is no `UNKNOWN`. -/
theorem selectOp_ne_unknown_of_bcastLookup {dir : Dir} {payload : List Byte} {op : PktOp}
    (h : bcastLookup dir payload = some op) : selectOp dir payload ≠ .unknown := by
  obtain ⟨r, hr, rfl⟩ := bcastLookup_mem h
  rw [selectOp_of_bcastLookup h]
  exact op_ne_unknown_of_mem _ (mem_selectingRows_of_bcastTable hr)

/-- A packet that some row selects for is not `UNKNOWN`: one of the two lookups finds an operation. -/
theorem Selects.selectOp_ne_unknown {q : Dir × OpcodeRow} {dir : Dir} {h : Byte} {rest : List Byte}
    (hs : Selects q dir h rest) (hq : q ∈ selectingRows) : selectOp dir (h :: rest) ≠ .unknown := by
  obtain ⟨rfl, rfl, ha⟩ := hs
  obtain ⟨r, hr, rfl⟩ | hr := mem_selectingRows hq
  · cases rest with
    | nil => cases ha
    | cons x tail =>
      obtain rfl := OpcodeRow.head_of_accepts ha
      obtain ⟨op, hop⟩ := bcastLookup_isSome hr tail
      exact selectOp_ne_unknown_of_bcastLookup hop
  · cases hb : bcastLookup q.1 (q.2.header :: rest) with
    | some op => exact selectOp_ne_unknown_of_bcastLookup hb
    | none =>
      obtain ⟨op, hop⟩ := opcodeLookup_of_accepts hr ha
      obtain ⟨r', hr', -, rfl⟩ := opcodeLookup_mem hop
      rw [selectOp_of_opcodeLookup hb hop]
      exact op_ne_unknown_of_mem _ (mem_selectingRows_of_opcodeTable hr')

/-- A packet that is not `UNKNOWN` has the operation of a row that selects for it. -/
theorem exists_selects_of_ne_unknown {dir : Dir} {h : Byte} {rest : List Byte}
    (hne : selectOp dir (h :: rest) ≠ .unknown) :
    ∃ q ∈ selectingRows, Selects q dir h rest ∧ q.2.op = selectOp dir (h :: rest) := by
  obtain hunknown | ⟨r, hrow, hheader, ha⟩ := selectOp_cases dir h rest
  · exact absurd hunknown hne
  · exact ⟨(dir, r), List.mem_of_find?_eq_some hrow, ⟨rfl, hheader, ha⟩, by simpa using List.find?_some hrow⟩

/-- `UNKNOWN` is what no row selects for (R141, R150). -/
theorem selectOp_eq_unknown_iff {dir : Dir} {h : Byte} {rest : List Byte} :
    selectOp dir (h :: rest) = .unknown ↔ ∀ q ∈ selectingRows, ¬Selects q dir h rest := by
  refine ⟨fun hunknown q hq hs => hs.selectOp_ne_unknown hq hunknown, fun hnone => ?_⟩
  by_contra hne
  obtain ⟨q, hq, hs, -⟩ := exists_selects_of_ne_unknown hne
  exact hnone q hq hs

/-! ### The match-and-mask table (R77) -/

/-- The match and mask of a row over the dispatch word: direction and header always, the second byte where the row has a
sub-opcode. -/
def matchRow (q : Dir × OpcodeRow) : DwRow where
  pattern := dirBit q.1 ++ (q.2.header ++ q.2.sub.getD 0)
  mask := BitVec.allOnes 1 ++ (BitVec.allOnes 8 ++ if q.2.sub.isSome then BitVec.allOnes 8 else 0)
  op := q.2.op

/-- The match-and-mask table holds the rows of the three tables of R84, R85 and R144, and no others. -/
theorem dwRows_perm_matchRow : (selectingRows.map matchRow).Perm dwRows := by decide

theorem matchRow_mem_dwRows {q : Dir × OpcodeRow} (hq : q ∈ selectingRows) : matchRow q ∈ dwRows :=
  dwRows_perm_matchRow.mem_iff.mp (List.mem_map_of_mem hq)

theorem exists_matchRow_of_mem_dwRows {r : DwRow} (hr : r ∈ dwRows) : ∃ q ∈ selectingRows, matchRow q = r :=
  List.mem_map.mp (dwRows_perm_matchRow.mem_iff.mpr hr)

theorem append_eq_append_iff {w v : Nat} {x₁ x₂ : BitVec w} {y₁ y₂ : BitVec v} :
    x₁ ++ y₁ = x₂ ++ y₂ ↔ x₁ = x₂ ∧ y₁ = y₂ := by
  refine ⟨fun h => ⟨?_, ?_⟩, fun ⟨hx, hy⟩ => by rw [hx, hy]⟩
  · simpa only [BitVec.extractLsb'_append_eq_left] using congrArg (BitVec.extractLsb' v w) h
  · simpa only [BitVec.extractLsb'_append_eq_right] using congrArg (BitVec.extractLsb' 0 v) h

theorem dirBit_inj {d d' : Dir} : dirBit d = dirBit d' ↔ d = d' := by
  cases d <;> cases d' <;> decide

/-- A dispatch word fits a row on its direction, its header and its second byte. -/
theorem matchRow_fits_iff (q : Dir × OpcodeRow) (dir : Dir) (h : Byte) (rest : List Byte) :
    (matchRow q).fits (dispatchWord dir (h :: rest)) = true ↔
      q.1 = dir ∧ q.2.header = h ∧ q.2.accepts (some (rest.headD 0)) = true := by
  obtain ⟨d, header, sub, op⟩ := q
  rw [DwRow.fits, beq_iff_eq, dispatchWord, matchRow, BitVec.and_append, BitVec.and_append, BitVec.and_allOnes,
    BitVec.and_allOnes, append_eq_append_iff, append_eq_append_iff, dirBit_inj, eq_comm (a := dir), List.headD_cons,
    eq_comm (a := h), List.tail_cons]
  cases sub with
  | none => simp [OpcodeRow.accepts]
  | some x =>
    rw [Option.isSome_some, if_pos rfl, BitVec.and_allOnes]
    simp [OpcodeRow.accepts]

/-- A header with sub-opcodes declares a second byte. -/
theorem sub_eq_none_of_headerCount : ∀ q ∈ selectingRows, headerCount q.2.header = 0 → q.2.sub = none := by decide

/-- On a framed payload a row fits the dispatch word exactly if it selects for the packet: where the dispatch word has 0
for a byte that is not there, no row of the header reads it. -/
theorem matchRow_fits_iff_selects {q : Dir × OpcodeRow} (hq : q ∈ selectingRows) {dir : Dir} {h : Byte}
    {rest : List Byte} (hframed : framed (h :: rest) = true) :
    (matchRow q).fits (dispatchWord dir (h :: rest)) = true ↔ Selects q dir h rest := by
  rw [matchRow_fits_iff]
  refine and_congr_right fun _ => and_congr_right fun hheader => ?_
  cases rest with
  | cons x tail => rfl
  | nil =>
    have hsub := sub_eq_none_of_headerCount q hq (hheader ▸ (length_of_framed hframed).symm)
    simp [OpcodeRow.accepts, hsub]

theorem DwRow.eq_of_fits {r q : DwRow} {dw : BitVec 17} (hr : r ∈ dwRows) (hq : q ∈ dwRows)
    (hrfits : r.fits dw = true) (hqfits : q.fits dw = true) : r = q := by
  have hsymm : Std.Symm fun r q : DwRow => r.pattern &&& q.mask ≠ q.pattern &&& r.mask := ⟨fun _ _ => Ne.symm⟩
  by_contra hne
  exact DwRow.not_fits_both (dwRows_pairwise.forall hr hq hne) dw ⟨hrfits, hqfits⟩

theorem opOfDispatchWord_of_fits {r : DwRow} {dw : BitVec 17} (hr : r ∈ dwRows) (hfits : r.fits dw = true) :
    opOfDispatchWord dw = r.op := by
  unfold opOfDispatchWord
  split
  next q hq =>
    rw [DwRow.eq_of_fits (List.mem_of_find?_eq_some hq) hr (by simpa using List.find?_some hq) hfits]
  next hnone => exact absurd hfits (List.find?_eq_none.mp hnone r hr)

theorem opOfDispatchWord_of_not_fits {dw : BitVec 17} (h : ∀ r ∈ dwRows, r.fits dw = false) :
    opOfDispatchWord dw = .unknown := by
  have hnone : dwRows.find? (·.fits dw) = none := List.find?_eq_none.mpr fun r hr => by simp [h r hr]
  simp [opOfDispatchWord, hnone]

/-- Settles O4: the row that selects for a packet fits its dispatch word, as no other row does; where none selects, none
fits. -/
theorem lookupOrderSelectsTheMatchingRow : Obligations.LookupOrderSelectsTheMatchingRow := by
  intro dir payload hframed
  cases payload with
  | nil => cases hframed
  | cons h rest =>
    by_cases hunknown : selectOp dir (h :: rest) = .unknown
    · rw [hunknown, opOfDispatchWord_of_not_fits]
      intro r hr
      obtain ⟨q, hq, rfl⟩ := exists_matchRow_of_mem_dwRows hr
      rw [← Bool.not_eq_true, matchRow_fits_iff_selects hq hframed]
      exact selectOp_eq_unknown_iff.mp hunknown q hq
    · obtain ⟨q, hq, hs, hop⟩ := exists_selects_of_ne_unknown hunknown
      rw [← hop]
      exact (opOfDispatchWord_of_fits (matchRow_mem_dwRows hq) ((matchRow_fits_iff_selects hq hframed).mpr hs)).symm

/-! ### Totality (R140) -/

/-- Settles O3: a dispatch of a framed payload answers, and what it decoded is the well-formed code of that payload. -/
theorem everyFramedPacketIsDispatched : Obligations.EveryFramedPacketIsDispatched := by
  intro dir payload hframed
  obtain ⟨body, hdispatch⟩ := dispatch_of_framed dir hframed
  obtain ⟨i, hdecode, hbody⟩ := dispatch_ok hdispatch
  obtain ⟨-, hwf⟩ := encode_of_decodePacket hdecode
  exact ⟨length_le_of_framed hframed, i, body, hdecode, hwf, hbody, hdispatch⟩

/-! ### Unknown packets (R150) -/

theorem decodePacket_of_selectOp_unknown {dir : Dir} {payload : List Byte} (hframed : framed payload = true)
    (hunknown : selectOp dir payload = .unknown) : decodePacket dir payload = .ok (.unknown dir payload) := by
  rw [decodePacket, if_pos hframed, hunknown]
  rfl

/-- A framed packet that no row selects for is reported as `unknown` (R141, R150). -/
theorem dispatch_unknown_of_not_selects {dir : Dir} {h : Byte} {rest : List Byte} (hframed : framed (h :: rest) = true)
    (hnone : ∀ q ∈ selectingRows, ¬Selects q dir h rest) : dispatch dir (h :: rest) = .ok .unknown :=
  dispatch_of_decode (decodePacket_of_selectOp_unknown hframed (selectOp_eq_unknown_iff.mpr hnone)) rfl

/-- Settles O29: a dispatch word without a row is `UNKNOWN` in the match-and-mask table, so in the lookups too (O4). -/
theorem unknownPacketsAreReported : Obligations.UnknownPacketsAreReported := by
  intro dir payload hframed hnone
  have hunknown : selectOp dir payload = .unknown :=
    (lookupOrderSelectsTheMatchingRow dir payload hframed).trans (opOfDispatchWord_of_not_fits hnone)
  have hdecode := decodePacket_of_selectOp_unknown hframed hunknown
  exact ⟨hdecode, dispatch_of_decode hdecode rfl, fun s => exec_of_packetBody rfl s⟩

/-! ### Broadcasts (R142 to R149) -/

/-- The headers of the broadcast pairs stand in no row of the device-to-station table (R142). -/
theorem header_ne_bcast_of_device : ∀ q ∈ selectingRows, q.1 = .deviceToStation →
    ¬(q.2.header = 0x61 ∨ q.2.header = 0x81) := by decide

/-- The one row with the header `0x81` is the pair of `BC.ESTOP` (R148). -/
theorem sub_of_header_estop : ∀ q ∈ selectingRows, q.2.header = 0x81 → q.2.sub = some 0x00 := by decide

theorem dispatch_device_bcast_header {h : Byte} (x : Byte) (hh : h = 0x61 ∨ h = 0x81) :
    dispatch .deviceToStation [h, x] = .ok .unknown := by
  have hframed : framed [h, x] = true := by obtain rfl | rfl := hh <;> rfl
  refine dispatch_unknown_of_not_selects hframed fun q hq hs => ?_
  obtain ⟨hdir, rfl, -⟩ := hs
  exact header_ne_bcast_of_device q hq hdir hh

theorem dispatch_station_estop_header {x : Byte} (hx : x ≠ 0x00) :
    dispatch .stationToDevice [0x81, x] = .ok .unknown := by
  refine dispatch_unknown_of_not_selects rfl fun q hq hs => hx ?_
  obtain ⟨-, hheader, ha⟩ := hs
  simpa [OpcodeRow.accepts, sub_of_header_estop q hq hheader] using ha

/-- Settles O28: each meaning drives its body alone, the pairs are evaluated, no row selects for the others. -/
theorem broadcastsEmitTheirEvents : Obligations.BroadcastsEmitTheirEvents :=
  ⟨fun s => ⟨exec_of_packetBody rfl s, exec_of_packetBody rfl s, exec_of_packetBody rfl s, exec_of_packetBody rfl s,
      exec_of_packetBody rfl s⟩,
    rfl, rfl, rfl, rfl, rfl, rfl, rfl, rfl, rfl, rfl, fun _ x hh => dispatch_device_bcast_header x hh,
    fun _ hx => dispatch_station_estop_header hx⟩

end Sys2Proof.Machine
end

section
/-! PROOFS. The locomotive operations (spec/43_locomotive.md R160 to R179): address, speed and function layouts, what each
operation reports, and the sub-opcodes that a decoder declines. -/

namespace Sys2Proof.Machine

/-! ### The dispatch word (R77) -/

/-- A dispatch word is direction, header and second byte, whatever follows them (R77). -/
theorem dispatchWord_of_head {dir : Dir} {h x : Byte} {rest : List Byte} {w : BitVec 17}
    (hw : dirBit dir ++ (h ++ x) = w) : dispatchWord dir (h :: x :: rest) = w := hw

/-! ### Address and speed (R160, R161) -/

/-- Settles O32: both sides are the number `AH[5:0] * 256 + AL`. -/
theorem locoAddressBranchesAgree : Obligations.LocoAddressBranchesAgree := by
  intro ah al
  refine BitVec.eq_of_toNat_eq ?_
  rw [locoAddr_toNat, BitVec.toNat_append, Nat.shiftLeft_eq, Nat.mul_comm _ (2 ^ 8),
    ← Nat.two_pow_add_eq_or_of_lt al.isLt]
  simp [Nat.mul_comm]

/-- The address by the two branches of R160, the short one and the long one. -/
theorem locoAddr_toNat_eq_ite (ah al : Byte) :
    (locoAddr ah al).toNat = if ah.toNat = 0 then al.toNat else ah.toNat % 64 * 256 + al.toNat := by
  rw [locoAddr_toNat]
  split <;> omega

theorem rawSpeed_eq_iff (rv : Byte) (n : BitVec 7) : rawSpeed rv = n ↔ rv.toNat % 128 = n.toNat := by
  rw [← BitVec.toNat_inj, rawSpeed_toNat]

theorem speedOf_stop {rv : Byte} (h : rv.toNat % 128 = 0) : speedOf rv = .step 0 :=
  if_pos ((rawSpeed_eq_iff rv 0).mpr h)

theorem speedOf_emergencyStop {rv : Byte} (h : rv.toNat % 128 = 1) : speedOf rv = .emergencyStop := by
  have hraw : rawSpeed rv = 1 := (rawSpeed_eq_iff rv 1).mpr h
  simp [speedOf, hraw]

/-- Every other raw value `raw` is the step `raw - 1` (R161). -/
theorem speedOf_step {rv : Byte} (h : 2 ≤ rv.toNat % 128) :
    ∃ n, speedOf rv = .step n ∧ n.toNat = rv.toNat % 128 - 1 := by
  have hzero : rawSpeed rv ≠ 0 := mt (rawSpeed_eq_iff rv 0).mp (by simp; omega)
  have hone : rawSpeed rv ≠ 1 := mt (rawSpeed_eq_iff rv 1).mp (by simp; omega)
  refine ⟨rawSpeed rv - 1, by rw [speedOf, if_neg hzero, if_neg hone], ?_⟩
  have hle : (1 : BitVec 7) ≤ rawSpeed rv := by
    rw [BitVec.le_def, rawSpeed_toNat]
    exact Nat.le_of_succ_le h
  rw [BitVec.toNat_sub_of_le hle, rawSpeed_toNat]
  rfl

/-- Settles O31: the operand computations give address, direction and speed; each meaning drives them with its step
mode. -/
theorem speedOperationsReportAddressAndSpeed : Obligations.SpeedOperationsReportAddressAndSpeed := by
  intro ah al rv s
  exact ⟨locoAddr ah al, directionOf rv, speedOf rv, locoAddr_toNat_eq_ite ah al, directionOf_eq rv, speedOf_stop,
    speedOf_emergencyStop, speedOf_step, rfl, rfl, rfl, rfl, dispatchWord_of_head rfl, dispatchWord_of_head rfl,
    dispatchWord_of_head rfl, dispatchWord_of_head rfl, exec_of_packetBody rfl s,
    exec_of_packetBody rfl s, exec_of_packetBody rfl s, exec_of_packetBody rfl s⟩

/-! ### Function layouts (R167) -/

/-- A run of a value of `n` bits from F`k` puts bit `i` of the value at F`k + i`, and nothing elsewhere. -/
theorem fnRun_setWidth_getLsbD (mask : BitVec 29) {n k : Nat} (hk : k + n ≤ 29) (v : BitVec n) (j : Nat) :
    (fnRun mask k (v.setWidth 29)).bits.getLsbD j = if k ≤ j ∧ j < k + n then v.getLsbD (j - k) else false := by
  rw [fnRun_getLsbD, BitVec.getLsbD_setWidth]
  split
  next hj =>
    obtain ⟨hlow, hhigh⟩ := hj
    have hj29 : j < 29 := by omega
    have hi29 : j - k < 29 := by omega
    simp [hj29, hi29, Nat.not_lt.mpr hlow]
  next hj =>
    by_cases hlow : k ≤ j
    · have hout : v.getLsbD (j - k) = false := BitVec.getLsbD_of_ge _ _ (by omega)
      simp [hout]
    · simp [Nat.lt_of_not_le hlow]

theorem fnRun_byte_getLsbD (mask : BitVec 29) {k : Nat} (hk : k ≤ 21) (d : Byte) (j : Nat) :
    (fnRun mask k (d.setWidth 29)).bits.getLsbD j = if k ≤ j ∧ j ≤ k + 7 then d.getLsbD (j - k) else false := by
  rw [fnRun_setWidth_getLsbD mask (by omega)]
  exact if_congr (and_congr_right' Nat.lt_succ_iff) rfl rfl

theorem fnRun_nibble_getLsbD (mask : BitVec 29) {k : Nat} (hk : k ≤ 25) (d : Byte) (j : Nat) :
    (fnRun mask k ((d.extractLsb' 0 4).setWidth 29)).bits.getLsbD j
      = if k ≤ j ∧ j ≤ k + 3 then d.getLsbD (j - k) else false := by
  rw [fnRun_setWidth_getLsbD mask (by omega)]
  refine ite_congr (propext (and_congr_right' Nat.lt_succ_iff)) (fun hj => ?_) fun _ => rfl
  have hi : j - k < 4 := by omega
  simp [hi]

/-- F0 in bit 4, F1 to F4 in bits 0 to 3. -/
theorem fnG1_getLsbD (d : Byte) (k : Nat) :
    (fnG1 d).bits.getLsbD k = if k = 0 then d.getLsbD 4 else if k ≤ 4 then d.getLsbD (k - 1) else false := by
  have hrun := fnRun_nibble_getLsbD 0x0000001F (k := 1) (by decide) d k
  have hbits : (fnG1 d).bits.getLsbD k = ((fnRun 0x0000001F 1 ((d.extractLsb' 0 4).setWidth 29)).bits.getLsbD k
      || ((d.extractLsb' 4 1).setWidth 29).getLsbD k) := BitVec.getLsbD_or
  rw [hbits, hrun]
  obtain rfl | hpos := Nat.eq_zero_or_pos k
  · simp
  · have hone : 1 ≤ k := hpos
    have hne : k ≠ 0 := by omega
    have hout : ((d.extractLsb' 4 1).setWidth 29).getLsbD k = false := by
      rw [BitVec.getLsbD_setWidth, BitVec.getLsbD_of_ge _ _ hone, Bool.and_false]
    simp [hout, hone, hne]

theorem fnG2_getLsbD (d : Byte) (k : Nat) :
    (fnG2 d).bits.getLsbD k = if 5 ≤ k ∧ k ≤ 8 then d.getLsbD (k - 5) else false :=
  fnRun_nibble_getLsbD _ (by decide) d k

theorem fnG3_getLsbD (d : Byte) (k : Nat) :
    (fnG3 d).bits.getLsbD k = if 9 ≤ k ∧ k ≤ 12 then d.getLsbD (k - 9) else false :=
  fnRun_nibble_getLsbD _ (by decide) d k

theorem fnG4_getLsbD (d : Byte) (k : Nat) :
    (fnG4 d).bits.getLsbD k = if 13 ≤ k ∧ k ≤ 20 then d.getLsbD (k - 13) else false :=
  fnRun_byte_getLsbD _ (by decide) d k

theorem fnG5_getLsbD (d : Byte) (k : Nat) :
    (fnG5 d).bits.getLsbD k = if 21 ≤ k ∧ k ≤ 28 then d.getLsbD (k - 21) else false :=
  fnRun_byte_getLsbD _ (by decide) d k

theorem fnF5to12_getLsbD (d : Byte) (k : Nat) :
    (fnF5to12 d).bits.getLsbD k = if 5 ≤ k ∧ k ≤ 12 then d.getLsbD (k - 5) else false :=
  fnRun_byte_getLsbD _ (by decide) d k

/-- Settles O33: the masks are read off, the bits are those of `G1` and of the five runs. -/
theorem functionLayoutsAreBitForBit : Obligations.FunctionLayoutsAreBitForBit :=
  ⟨fun _ _ => ⟨rfl, rfl⟩, fun d k => ⟨rfl, rfl, rfl, rfl, rfl, rfl, fnG1_getLsbD d k, fnG2_getLsbD d k,
    fnG3_getLsbD d k, fnG4_getLsbD d k, fnG5_getLsbD d k, fnF5to12_getLsbD d k⟩⟩

/-! ### Function operations and states (R168 to R176) -/

/-- Settles O34: each meaning drives its body alone, and the packets are evaluated. -/
theorem functionOperationsReportTheirGroup : Obligations.FunctionOperationsReportTheirGroup := by
  intro ah al d s
  exact ⟨rfl, rfl, rfl, rfl, dispatchWord_of_head rfl, dispatchWord_of_head rfl, dispatchWord_of_head rfl,
    dispatchWord_of_head rfl, exec_of_packetBody rfl s, exec_of_packetBody rfl s,
    exec_of_packetBody rfl s, exec_of_packetBody rfl s⟩

/-- Settles O35: each meaning drives its body alone, and the packets are evaluated. -/
theorem functionStatesReportTheirGroup : Obligations.FunctionStatesReportTheirGroup := by
  intro ah al d s
  exact ⟨rfl, rfl, rfl, rfl, rfl, dispatchWord_of_head rfl, dispatchWord_of_head rfl, dispatchWord_of_head rfl,
    dispatchWord_of_head rfl, dispatchWord_of_head rfl, exec_of_packetBody rfl s, exec_of_packetBody rfl s,
    exec_of_packetBody rfl s, exec_of_packetBody rfl s, exec_of_packetBody rfl s⟩

/-! ### Function status: sets of two layouts (R177 to R179) -/

theorem FnSet.or_getLsbD (x y : FnSet) (k : Nat) :
    (x.or y).bits.getLsbD k = (x.bits.getLsbD k || y.bits.getLsbD k) :=
  BitVec.getLsbD_or

/-- F0 to F4 from the first byte, F5 to F12 from the second (R177). -/
theorem fnG1_or_fnF5to12_getLsbD (x y : Byte) (k : Nat) :
    ((fnG1 x).or (fnF5to12 y)).bits.getLsbD k = if k = 0 then x.getLsbD 4 else if k ≤ 4 then x.getLsbD (k - 1)
      else if k ≤ 12 then y.getLsbD (k - 5) else false := by
  rw [FnSet.or_getLsbD, fnG1_getLsbD, fnF5to12_getLsbD]
  by_cases hlow : k ≤ 4
  · have hk : ¬(5 ≤ k ∧ k ≤ 12) := by omega
    simp [hlow, hk]
  · have hzero : k ≠ 0 := by omega
    have hfive : 5 ≤ k := by omega
    simp [hlow, hzero, hfive]

/-- F13 to F20 from the first byte, F21 to F28 from the second (R178, R179). -/
theorem fnG4_or_fnG5_getLsbD (x y : Byte) (k : Nat) :
    ((fnG4 x).or (fnG5 y)).bits.getLsbD k = if k ≤ 12 then false else if k ≤ 20 then x.getLsbD (k - 13)
      else if k ≤ 28 then y.getLsbD (k - 21) else false := by
  rw [FnSet.or_getLsbD, fnG4_getLsbD, fnG5_getLsbD]
  obtain h12 | ⟨h13, h20⟩ | h21 : k ≤ 12 ∨ (13 ≤ k ∧ k ≤ 20) ∨ 21 ≤ k := by omega
  · have h13 : ¬13 ≤ k := by omega
    have h21 : ¬21 ≤ k := by omega
    simp [h12, h13, h21]
  · have h12 : ¬k ≤ 12 := by omega
    have h21 : ¬21 ≤ k := by omega
    simp [h12, h13, h20, h21]
  · have h12 : ¬k ≤ 12 := by omega
    have h20 : ¬k ≤ 20 := by omega
    simp [h12, h20, h21]

theorem fnG1_or_fnF5to12_mask (x y : Byte) : ((fnG1 x).or (fnF5to12 y)).mask = 0x00001FFF :=
  show (0x0000001F ||| 0x00001FE0 : BitVec 29) = 0x00001FFF by decide

theorem fnG4_or_fnG5_mask (x y : Byte) : ((fnG4 x).or (fnG5 y)).mask = 0x1FFFE000 :=
  show (0x001FE000 ||| 0x1FE00000 : BitVec 29) = 0x1FFFE000 by decide

/-- Settles O36: the sets are the unions of `G1` with F5 to F12 and of `G4` with `G5`, bit by bit. -/
theorem stationFunctionStatusIsBitForBit : Obligations.StationFunctionStatusIsBitForBit := by
  intro x y z s
  exact ⟨(fnG1 x).or (fnF5to12 y), (fnG4 x).or (fnG5 y), fnG1_or_fnF5to12_mask x y, fnG4_or_fnG5_mask x y,
    fnG1_or_fnF5to12_getLsbD x y, fnG4_or_fnG5_getLsbD x y, rfl, rfl, rfl, dispatchWord_of_head rfl,
    dispatchWord_of_head rfl, dispatchWord_of_head rfl, exec_of_packetBody rfl s, exec_of_packetBody rfl s,
    exec_of_packetBody rfl s⟩

/-! ### Declined sub-opcodes (R151, R166) -/

/-- Where every row of a direction and header has its sub-opcode among `subs`, a packet with any other second byte is
`unknown` (R151). -/
theorem dispatch_unknown_of_sub_not_mem {dir : Dir} {h sub : Byte} {tail : List Byte} (subs : List Byte)
    (hrows : ∀ q ∈ selectingRows, q.1 = dir → q.2.header = h → ∃ x ∈ subs, q.2.sub = some x)
    (hlen : tail.length + 1 = headerCount h) (hsub : sub ∉ subs) :
    dispatch dir (h :: sub :: tail) = .ok .unknown := by
  have hframed : framed (h :: sub :: tail) = true := by rw [framed_cons, List.length_cons, hlen, beq_self_eq_true]
  refine dispatch_unknown_of_not_selects hframed fun q hq hs => hsub ?_
  obtain ⟨hdir, hheader, ha⟩ := hs
  obtain ⟨x, hx, hqsub⟩ := hrows q hq hdir hheader
  have hsubx : sub = x := by simpa [OpcodeRow.accepts, hqsub] using ha
  exact hsubx ▸ hx

/-- Settles O30: the sub-opcodes of each header's rows are read from the tables; any other one selects no row. -/
theorem decodersDeclineOtherSubOpcodes : Obligations.DecodersDeclineOtherSubOpcodes := by
  intro sub tail
  refine ⟨fun hlen hsub => ?_, fun hlen hsub => ?_, fun hlen hsub => ?_, fun hlen hsub => ?_, fun hlen hsub => ?_,
    fun hlen h50 h52 => ?_, fun hlen hsub => ?_⟩
  · exact dispatch_unknown_of_sub_not_mem _ (by decide) (congrArg (· + 1) hlen) hsub
  · exact dispatch_unknown_of_sub_not_mem _ (by decide) (congrArg (· + 1) hlen) hsub
  · exact dispatch_unknown_of_sub_not_mem _ (by decide) (congrArg (· + 1) hlen) hsub
  · exact dispatch_unknown_of_sub_not_mem [0x22] (by decide) (congrArg (· + 1) hlen) (mt List.mem_singleton.mp hsub)
  · exact dispatch_unknown_of_sub_not_mem [0x21] (by decide) (congrArg (· + 1) hlen) (mt List.mem_singleton.mp hsub)
  · exact dispatch_unknown_of_sub_not_mem [0x50, 0x52] (by decide) (congrArg (· + 1) hlen) fun hsub =>
      (List.mem_pair.mp hsub).elim h50 h52
  · exact dispatch_unknown_of_sub_not_mem [0x51] (by decide) (congrArg (· + 1) hlen) (mt List.mem_singleton.mp hsub)

end Sys2Proof.Machine
end

section
/-! PROOFS. The accessory operations (spec/44_accessory.md R191 to R195): the fields of the operand bytes as numbers, and
what each packet decodes to and reports. -/

namespace Sys2Proof.Machine

/-! ### The dispatch word without the second byte (R77) -/

/-- The mask of the rows without a sub-opcode keeps direction and header. -/
theorem dispatchWord_and_header_mask (dir : Dir) (h : Byte) (rest : List Byte) :
    dispatchWord dir (h :: rest) &&& 0x1FF00 = dirBit dir ++ (h ++ (0 : Byte)) := by
  have hmask : (0x1FF00 : BitVec 17) = BitVec.allOnes 1 ++ (BitVec.allOnes 8 ++ (0 : Byte)) := rfl
  rw [hmask, dispatchWord, BitVec.and_append, BitVec.and_append, BitVec.and_allOnes, BitVec.and_allOnes,
    BitVec.ofNat_eq_ofNat, BitVec.and_zero, List.headD_cons]

/-! ### Fields of an operand byte -/

theorem extractLsb'_toNat_eq_div_mod (b : Byte) (k n : Nat) : (b.extractLsb' k n).toNat = b.toNat / 2 ^ k % 2 ^ n := by
  rw [BitVec.extractLsb'_toNat, Nat.shiftRight_eq_div_pow]

theorem getLsbD_iff_div_mod (b : Byte) (k : Nat) : b.getLsbD k = true ↔ b.toNat / 2 ^ k % 2 = 1 := by
  rw [BitVec.getLsbD, Nat.testBit_eq_decide_div_mod_eq, decide_eq_true_iff]

theorem outputOf_eq_ite (b : Byte) : outputOf b = if b.toNat % 2 = 1 then .two else .one := by
  simp only [outputOf, getLsbD_iff_div_mod, Nat.pow_zero, Nat.div_one]

theorem outputStateOf_eq_ite (b : Byte) :
    outputStateOf b = if b.toNat / 8 % 2 = 1 then .activate else .deactivate := by
  simp only [outputStateOf, getLsbD_iff_div_mod, Nat.reducePow]

/-- The pair that bit `k` of the data byte selects (R191). -/
theorem accPair_of_bit_toNat (a b : Byte) (k : Nat) :
    (accPair a (b.extractLsb' k 1)).first.toNat = 4 * a.toNat + 2 * (b.toNat / 2 ^ k % 2) ∧
      (accPair a (b.extractLsb' k 1)).second.toNat = 4 * a.toNat + 2 * (b.toNat / 2 ^ k % 2) + 1 :=
  extractLsb'_toNat_eq_div_mod b k 1 ▸ accPair_toNat a (b.extractLsb' k 1)

theorem opAddress_toNat_eq_div_mod (a b : Byte) : (opAddress a b).toNat = 4 * a.toNat + b.toNat / 2 % 4 := by
  simp only [opAddress_toNat, extractLsb'_toNat_eq_div_mod, Nat.pow_one, Nat.reducePow]

/-! ### What the packets report -/

/-- `ACC.INFORESP` by its fields; the incomplete bit is bit 7, as the direction of a speed operand is. -/
theorem exec_accInforesp (a b : Byte) (s : State) :
    exec (.accInforesp a b) s = .next { s with
      evt := some ⟨.accessoryDecoderInformationResponse (b.extractLsb' 5 2) (accPair a (b.extractLsb' 4 1))
        ⟨b.extractLsb' 0 2, b.extractLsb' 2 2, decide (128 ≤ b.toNat)⟩, s.start, s.port.symEnd⟩ } := by
  have hincomplete : b.getLsbD 7 = decide (128 ≤ b.toNat) := directionOf_eq b
  rw [exec_of_packetBody rfl, accInforespBody, hincomplete]
  rfl

/-- Settles O38: the pairs are those that bit 0 and bit 4 select, the response's other fields are cut out at their
places. -/
theorem accessoryInformationReportsThePair : Obligations.AccessoryInformationReportsThePair := by
  intro a b s
  obtain ⟨hq, hq'⟩ := accPair_of_bit_toNat a b 0
  obtain ⟨hr, hr'⟩ := accPair_of_bit_toNat a b 4
  rw [Nat.pow_zero, Nat.div_one] at hq hq'
  have hst0 : (b.extractLsb' 0 2).toNat = b.toNat % 4 := by
    simp only [extractLsb'_toNat_eq_div_mod, Nat.pow_zero, Nat.div_one, Nat.reducePow]
  exact ⟨accPair a (b.extractLsb' 0 1), accPair a (b.extractLsb' 4 1), b.extractLsb' 5 2, b.extractLsb' 0 2,
    b.extractLsb' 2 2, hq, hq', hr, hr', extractLsb'_toNat_eq_div_mod b 5 2, hst0,
    extractLsb'_toNat_eq_div_mod b 2 2, rfl, rfl, dispatchWord_and_header_mask _ _ _,
    dispatchWord_and_header_mask _ _ _, exec_of_packetBody rfl s, exec_accInforesp a b s⟩

/-- Settles O39: the address is `opAddress`, and each label is the choice its bit makes. -/
theorem accessoryOperationRequestIsDecoded : Obligations.AccessoryOperationRequestIsDecoded := by
  intro a b s
  refine ⟨opAddress a b, opAddress_toNat_eq_div_mod a b, rfl, dispatchWord_and_header_mask _ _ _, ?_⟩
  rw [exec_of_packetBody rfl, accOpreqBody, outputOf_eq_ite, outputStateOf_eq_ite]
  rfl

end Sys2Proof.Machine
end

section
/-! PROOFS. The station operations (spec/45_station.md R210 to R220): the requests, the errors the station reports, the
status flags and the software version. -/

namespace Sys2Proof.Machine

/-! ### Requests and errors (R210 to R217) -/

/-- The acknowledgment header stands in no row of the tables a call byte selects (R210). -/
theorem header_ne_ack_of_station : ∀ q ∈ selectingRows, q.1 = .stationToDevice → q.2.header ≠ 0x20 := by decide

theorem dispatch_station_ack_header : dispatch .stationToDevice [0x20] = .ok .unknown := by
  refine dispatch_unknown_of_not_selects rfl fun q hq hs => ?_
  obtain ⟨hdir, hheader, -⟩ := hs
  exact header_ne_ack_of_station q hq hdir hheader

/-- Settles O40: each meaning drives its body alone, the packets are evaluated; a request with another sub-opcode is one
of the packets that decoders decline (O30). -/
theorem requestsAreReported : Obligations.RequestsAreReported := by
  refine ⟨fun s => ⟨exec_of_packetBody rfl s, exec_of_packetBody rfl s, exec_of_packetBody rfl s,
      exec_of_packetBody rfl s, exec_of_packetBody rfl s⟩,
    rfl, rfl, rfl, rfl, rfl, rfl, dispatchWord_of_head rfl, dispatchWord_of_head rfl, dispatchWord_of_head rfl,
    dispatchWord_of_head rfl, dispatch_station_ack_header, fun x hx => ?_⟩
  obtain ⟨hrequest, -⟩ := decodersDeclineOtherSubOpcodes x []
  exact hrequest rfl hx

/-- Settles O41: each meaning drives its body alone, the packets are evaluated; a header `0x61` with another sub-opcode
is one of the packets that decoders decline (O30). -/
theorem stationErrorsAreEvents : Obligations.StationErrorsAreEvents := by
  refine ⟨fun s => ⟨exec_of_packetBody rfl s, exec_of_packetBody rfl s, exec_of_packetBody rfl s⟩,
    rfl, rfl, rfl, dispatchWord_of_head rfl, dispatchWord_of_head rfl, dispatchWord_of_head rfl, fun x hx => ?_⟩
  obtain ⟨-, -, hstation, -⟩ := decodersDeclineOtherSubOpcodes x []
  exact hstation rfl hx

/-! ### Status and version (R218, R220) -/

theorem getLsbD_eq_decide_div_mod (b : Byte) (k : Nat) : b.getLsbD k = decide (b.toNat / 2 ^ k % 2 = 1) := by
  rw [Bool.eq_iff_iff, getLsbD_iff_div_mod, decide_eq_true_iff]

/-- The six flags of a status byte, each by the number its bit is (R218). -/
theorem statusFlagsOf_eq_div_mod (st : Byte) : statusFlagsOf st =
    { ramCheckError := decide (st.toNat / 128 % 2 = 1)
      powerUp := decide (st.toNat / 64 % 2 = 1)
      serviceMode := decide (st.toNat / 8 % 2 = 1)
      startMode := if st.toNat / 4 % 2 = 1 then .automatic else .manual
      emergencyStop := decide (st.toNat / 2 % 2 = 1)
      emergencyOff := decide (st.toNat % 2 = 1) } := by
  simp only [statusFlagsOf, getLsbD_eq_decide_div_mod, decide_eq_true_iff, Nat.reducePow, Nat.pow_zero, Nat.div_one]

/-- Settles O42: the meaning drives the flags of its byte alone. -/
theorem stationStatusReportsTheFlags : Obligations.StationStatusReportsTheFlags := by
  intro st s
  refine ⟨rfl, dispatchWord_of_head rfl, ?_⟩
  rw [exec_of_packetBody rfl, staStatusBody, statusFlagsOf_eq_div_mod]
  rfl

/-- Settles O43: the nibbles are those of `versionOf`, and the meaning drives them with the station id as it came. -/
theorem softwareVersionReportsTheNibbles : Obligations.SoftwareVersionReportsTheNibbles := by
  intro v stationId s
  obtain ⟨hmajor, hminor⟩ := versionOf_toNat v
  exact ⟨(versionOf v).major, (versionOf v).minor, hmajor, hminor, rfl, dispatchWord_of_head rfl,
    exec_of_packetBody rfl s⟩

end Sys2Proof.Machine
end

section
/-! PROOFS. Exceptions (spec/60_exceptions.md R230): the block raises none and never stops. -/

namespace Sys2Proof.Machine

/-- Settles O47: the progress half of `step_of_safe`, which splits on the kind of cycle (none to come, reset, no symbol,
flagged symbol, symbol taken); a taken symbol is answered by `exec_decodeSymbol_safe`. -/
theorem safeStateNeverStops : Obligations.SafeStateNeverStops := by
  intro s hs
  obtain ⟨t, hstep, -⟩ := step_of_safe hs
  exact ⟨t, hstep⟩

end Sys2Proof.Machine
end

section
/-! PROOFS. Reset and hazards (spec/70_reset_and_hazards.md R260): a cycle with `rst` high. -/

namespace Sys2Proof.Machine

/-- Settles O12: `rst` is the first test of a cycle, so the step is `State.resetCycle` of the latched state, and its
fields are the reset values. -/
theorem resetCycleResets : Obligations.ResetCycleResets := by
  intro s p rest hin hrst
  exact ⟨(s.latch p rest).resetCycle, step_rst hin hrst, State.resetCycle_asm _, State.resetCycle_swcb _,
    State.resetCycle_rem _, State.resetCycle_len _, State.resetCycle_addr _, State.resetCycle_evt _,
    (State.resetCycle_inputs _).trans (State.latch_inputs s p rest)⟩

end Sys2Proof.Machine
end
